-- ==== Sys2Proof/Word.lean ====
section
/-! DEFINITION. The word types of the Zemir and the bit-field arithmetic of R3 and R293
that every other file uses. Bit 0 is the least significant bit. -/

namespace Sys2Proof

/-- A byte of memory. -/
abbrev Byte := BitVec 8

/-- A 64-bit value: a general register, a system register, an address (R276, R167). -/
abbrev Word := BitVec 64

/-- A general register number g0-g31 (R276). -/
abbrev Gpr := BitVec 5

/-- The contents of a vector or mask register: a string of bits over the lanes of the lease.
Element `e` of width `w` is bits `e*w` to `e*w + w - 1`: the element groups of R123 in order of group
number. VLMAX follows the grant (R124), so the string has no one width. -/
abbrev Bits := Nat

/-- `bits(x, hi, lo)` of R293. -/
def bitsOf (x hi lo : Nat) : Nat := x / 2 ^ lo % 2 ^ (hi + 1 - lo)

/-- `sext(x, w)` of R293: the low `w` bits of `x` read as two's complement. -/
def sextOf (x w : Nat) : Int :=
  let z : Nat := x % 2 ^ w
  if z < 2 ^ (w - 1) then (z : Int) else (z : Int) - 2 ^ w

/-- The low `w` bits of an integer, as a natural number: `bits(x, w-1, 0)` on the unbounded integers of R7. -/
def wrapTo (x : Int) (w : Nat) : Nat := (x % (2 ^ w : Int)).toNat

/-- `sat(x, w, s)` of R293: clamped to the range of R241. -/
def satTo (x : Int) (w : Nat) (signed : Bool) : Int :=
  if signed then max (-(2 ^ (w - 1) : Int)) (min x (2 ^ (w - 1) - 1))
  else max 0 (min x (2 ^ w - 1))

/-- A 64-bit register value from an unbounded integer. -/
def wordOf (x : Int) : Word := BitVec.ofNat 64 (wrapTo x 64)

end Sys2Proof
end

