-- ==== Sys2Proof/Config.lean ====
section
/-! DEFINITION. What one ZM-4512 fixes for good (R1, R2), and the free values: constants without a body that
stand for every value the manual leaves open (log 3). Nothing in Lean can evaluate a free value. -/

namespace Sys2Proof.Config

/-- Geometry of the package (R1, R2). -/
def dies : Nat := 4
def clusters : Nat := 16
def cores : Nat := 16
def slots : Nat := 8
def podsPerCluster : Nat := 16
def podsPerDie : Nat := 256
def lanesPerPod : Nat := 64

/-- The cluster number that stands for a die's management core, which belongs to no cluster (R12, R167). -/
def mgmtCluster : Nat := 16

/-- VSLIP.SLIP (R149). -/
def slip : Nat := 32

/-- DEVFEAT.FEAT (R50). -/
def devFeat : BitVec 6 := 0x3F

/-- Entries of a vector queue (R158), a copy or fabric queue (R396, R400), a message queue (R151). -/
def vqDepth : Nat := 4
def queueDepth : Nat := 16

/-- The strip store buffer of a lane, in bytes (R215). -/
def storeBuffer : Nat := 2048

/-- The 2,048-cycle limit of R108, R131, R135 and R232. -/
def boundaryLimit : Nat := 2048

/-- Core cycles in 64 microseconds (R4, R93, R128). -/
def agePeriod : Nat := 64 * 2400

/-- A free value: the `n`-th value that the manual leaves open (log 3). -/
opaque freeNat : Nat → Nat

/-- A free value for an undefined byte of a lane-local store (R125): by the lane's seed and the byte. -/
opaque freeLane : Nat → Nat → Nat

/-- The hash that spreads fabric traffic over the planes (R37): how a hart, a destination package and a plane rank. -/
opaque planeRank : Nat → Nat → Nat → Nat

/-- The code of a requester of another package, by its package and tag (R274). -/
opaque remoteCode : Nat → Nat → Nat

/-- The stepping fused into the part (R50). -/
opaque stepping : BitVec 8

/-- Key material, fused or drawn at random, which never leaves the device (R69, log 10): the secret of the identity key, the same at
every start, and that of the wrap key of each start; the certificate and the digest of the firmware. -/
opaque identitySecret : List Byte
opaque wrapSecret : Nat → List Byte
opaque certificate : List Byte
opaque firmwareDigest : List Byte

/-- The identity of the one function of the port (R45): the vendor identifier assigned to Dechejan, which the manual does not give,
Device ID and class code. -/
opaque vendorId : BitVec 16
def deviceId : BitVec 16 := 0x4512
def classCode : BitVec 16 := 0x1200

end Sys2Proof.Config
end

