-- ==== Sys2Proof/Syntax.lean ====
section
/-! DEFINITION. The instruction set as syntax: one constructor per row of spec/opcode_table.json.
Three kinds of row: the scalar words (R281-R287), whose constructors carry the fields of the word; the
vector words (R288), whose constructors carry the fields every vector word has; and the events of the
part's other agents (95_what_each_step_holds.md), whose constructors name where the event happens and
carry what the outside world supplies. -/

namespace Sys2Proof

/-- A hart slot (R144, R238): die, cluster (16 stands for the die's management core), core, slot. -/
structure HartId where
  die : Nat
  clu : Nat
  core : Nat
  slot : Nat
  deriving DecidableEq, Repr

/-- A scalar core. -/
structure CoreId where
  die : Nat
  clu : Nat
  core : Nat
  deriving DecidableEq, Repr

/-- The core of a hart slot. -/
def HartId.coreId (h : HartId) : CoreId := ⟨h.die, h.clu, h.core⟩

/-- The message slot of a core (R144). -/
def CoreId.messageSlot (k : CoreId) : HartId := ⟨k.die, k.clu, k.core, 7⟩

/-- The fields of a vector word (R288). -/
structure VFields where
  c : Bool
  d : BitVec 5
  a : BitVec 5
  b : BitVec 5
  e : BitVec 5
  msk : BitVec 3
  zm : Bool
  fmt : BitVec 4
  fn : BitVec 8
  qs : BitVec 4
  imm : BitVec 16
  deriving DecidableEq, Repr

/-- What comes back for the fabric entry at the head of a queue (R38, R400): the transfer is done here because
the package is this one, the remote package supplies the bytes or accepts them, it refuses with a cause, or it
is unreachable. -/
inductive RemoteReply where
  | here
  | done (bytes : List Byte)
  | refused (cause : BitVec 8) (at_ : Nat)
  | unreachable
  deriving DecidableEq, Repr

/-- A die-to-die link (R30) or a scale-up port (R34). -/
inductive LinkId where
  | d2d (n : Nat)
  | port (die n : Nat)
  deriving DecidableEq, Repr

/-- What one gang engine tells another across packages (R41 to R43, R402): the harts of a gang that a package is to start, the answers,
COMMIT, ABORT and the cancel request, how a hart ended, a link lost between its dies, what a member does at a barrier, a released
episode. The manual gives the messages
and no layout (log 17); `run` is the number that the home engine gave the run. -/
inductive GangWord where
  | prepare (run : Nat) (graph : BitVec 56) (node : BitVec 16) (gen : BitVec 16) (slot : BitVec 8) (ptroot : BitVec 56) (cores : Bool) (prio : BitVec 3)
      (gsize : Nat) (entry args : Word) (request : BitVec 32) (harts : List Nat)
  | ack (run : Nat)
  | nack (run : Nat)
  | commit (run : Nat)
  | abort (run : Nat)
  | cancel (run : Nat)
  | done (run hix : Nat) (epc : Word) (place : BitVec 13)
  | failed (run hix reason code : Nat) (epc tval : Word) (place : BitVec 13) (time : Option Word)
  | lost (run link : Nat)
  | gone (run hix : Nat)
  | arrive (run hix : Nat) (bar : BitVec 3)
  | left (run hix : Nat) (bar : BitVec 3)
  | released (run : Nat) (bar : BitVec 3) (r : BitVec 32)
  deriving DecidableEq, Repr

/-- What a delivered flit asks for. The manual gives the header (R35) but no layout for the payload, so the
request stands here as data (log 17). -/
inductive FlitBody where
  | idle
  | put (addr : Nat) (slot : Nat) (bytes : List Byte)
  | get (addr : Nat) (slot : Nat) (n : Nat)
  | sig (addr : Nat) (n : Nat) (slot : Nat)
  | response (reply : RemoteReply)
  | gang (w : GangWord)
  | nak
  deriving DecidableEq, Repr

/-- A flit of 256 bytes (R35): the header's fields, the 240 bytes of the payload, the CRC-32C received. -/
structure Flit where
  kind : BitVec 4
  vc : BitVec 2
  seq : BitVec 12
  ack : BitVec 12
  ackv : Bool
  rsv31 : Bool
  dpkg : BitVec 12
  spkg : BitVec 12
  plen : BitVec 5
  rsv61 : BitVec 3
  tag : BitVec 32
  payload : List Byte
  crc : BitVec 32
  body : FlitBody
  deriving DecidableEq, Repr

/-- A host request that R47 refuses: the window, the kind of request and its size. -/
inductive HostRequest where
  | configRead (off n : Nat)
  | configWrite (off n : Nat)
  | configAtomic (off : Nat)
  | memoryRead (off n : Nat)
  | memoryWrite (off n : Nat)
  | memoryAtomic (off : Nat)
  | tokenRead (off n : Nat)
  | tokenWrite (off n : Nat)
  | tokenAtomic (off n : Nat) (fetchAdd : Bool)
  | identity
  | functionMask (on : Bool)
  deriving DecidableEq, Repr

/-- What the outside world decides in one start-up step (R27): whether fuses, signature and digests are good,
which Pods fail BIST, which stack or link fails to train, which scale-up ports train with how many lanes. -/
structure StartReport where
  good : Bool
  detail : Nat
  bist : List (Nat × Nat)
  mapGood : Bool
  paramGood : Bool
  badRecords : List (Nat × Nat)
  ports : List (Nat × Nat × Nat)
  runtimeFrames : List Nat
  temps : List (Nat × Nat × BitVec 12)
  deriving DecidableEq, Repr

/-- Every instruction and event of spec/opcode_table.json. -/
inductive Instr where
  -- scalar words
  /-- ADD (R305): Adds two general registers modulo 2^64. -/
  | add (d : BitVec 5) (a : BitVec 5) (b : BitVec 5)
  /-- SUB (R305): Subtracts gB from gA modulo 2^64. -/
  | sub (d : BitVec 5) (a : BitVec 5) (b : BitVec 5)
  /-- AND (R305): Bitwise AND of two registers. -/
  | and (d : BitVec 5) (a : BitVec 5) (b : BitVec 5)
  /-- OR (R305): Bitwise OR of two registers. -/
  | or (d : BitVec 5) (a : BitVec 5) (b : BitVec 5)
  /-- XOR (R305): Bitwise XOR of two registers. -/
  | xor (d : BitVec 5) (a : BitVec 5) (b : BitVec 5)
  /-- ANDN (R305): Computes gA AND NOT gB. -/
  | andn (d : BitVec 5) (a : BitVec 5) (b : BitVec 5)
  /-- SHL (R305): Shifts left by the low six bits of gB. -/
  | shl (d : BitVec 5) (a : BitVec 5) (b : BitVec 5)
  /-- SHR (R305): Logical shift right by the low six bits of gB. -/
  | shr (d : BitVec 5) (a : BitVec 5) (b : BitVec 5)
  /-- SAR (R305): Arithmetic shift right by the low six bits of gB. -/
  | sar (d : BitVec 5) (a : BitVec 5) (b : BitVec 5)
  /-- SLT (R305): Sets gD to 1 if gA is less than gB, signed. -/
  | slt (d : BitVec 5) (a : BitVec 5) (b : BitVec 5)
  /-- SLTU (R305): Sets gD to 1 if gA is less than gB, unsigned. -/
  | sltu (d : BitVec 5) (a : BitVec 5) (b : BitVec 5)
  /-- MIN (R305): Signed minimum of two registers. -/
  | min (d : BitVec 5) (a : BitVec 5) (b : BitVec 5)
  /-- MAX (R305): Signed maximum of two registers. -/
  | max (d : BitVec 5) (a : BitVec 5) (b : BitVec 5)
  /-- MINU (R305): Unsigned minimum of two registers. -/
  | minu (d : BitVec 5) (a : BitVec 5) (b : BitVec 5)
  /-- MAXU (R305): Unsigned maximum of two registers. -/
  | maxu (d : BitVec 5) (a : BitVec 5) (b : BitVec 5)
  /-- MUL (R305): Low 64 bits of the product. -/
  | mul (d : BitVec 5) (a : BitVec 5) (b : BitVec 5)
  /-- MULH (R305): High 64 bits of the signed product. -/
  | mulh (d : BitVec 5) (a : BitVec 5) (b : BitVec 5)
  /-- MULHU (R305): High 64 bits of the unsigned product. -/
  | mulhu (d : BitVec 5) (a : BitVec 5) (b : BitVec 5)
  /-- DIV (R306): Signed division truncating towards zero, with fixed results for zero divisor and overflow. -/
  | div (d : BitVec 5) (a : BitVec 5) (b : BitVec 5)
  /-- DIVU (R306): Unsigned division. -/
  | divu (d : BitVec 5) (a : BitVec 5) (b : BitVec 5)
  /-- REM (R306): Signed remainder. -/
  | rem (d : BitVec 5) (a : BitVec 5) (b : BitVec 5)
  /-- REMU (R306): Unsigned remainder. -/
  | remu (d : BitVec 5) (a : BitVec 5) (b : BitVec 5)
  /-- CLZ (R305): Counts leading zero bits. -/
  | clz (d : BitVec 5) (a : BitVec 5)
  /-- CTZ (R305): Counts trailing zero bits. -/
  | ctz (d : BitVec 5) (a : BitVec 5)
  /-- POPC (R305): Counts one bits. -/
  | popc (d : BitVec 5) (a : BitVec 5)
  /-- SEXT (R305): Sign-extends from byte, half or word. -/
  | sext (d : BitVec 5) (a : BitVec 5) (w : BitVec 2)
  /-- ZEXT (R305): Zero-extends from byte, half or word. -/
  | zext (d : BitVec 5) (a : BitVec 5) (w : BitVec 2)
  /-- ADDI (R307): Adds a sign-extended immediate. -/
  | addi (d : BitVec 5) (a : BitVec 5) (i : BitVec 16)
  /-- ANDI (R307): ANDs with a zero-extended immediate. -/
  | andi (d : BitVec 5) (a : BitVec 5) (i : BitVec 16)
  /-- ORI (R307): ORs with a zero-extended immediate. -/
  | ori (d : BitVec 5) (a : BitVec 5) (i : BitVec 16)
  /-- XORI (R307): XORs with a zero-extended immediate. -/
  | xori (d : BitVec 5) (a : BitVec 5) (i : BitVec 16)
  /-- SHLI (R307): Shifts left by an immediate 0 to 63. -/
  | shli (d : BitVec 5) (a : BitVec 5) (i : BitVec 6)
  /-- SHRI (R307): Logical shift right by an immediate. -/
  | shri (d : BitVec 5) (a : BitVec 5) (i : BitVec 6)
  /-- SARI (R307): Arithmetic shift right by an immediate. -/
  | sari (d : BitVec 5) (a : BitVec 5) (i : BitVec 6)
  /-- SLTI (R307): Signed compare with a sign-extended immediate. -/
  | slti (d : BitVec 5) (a : BitVec 5) (i : BitVec 16)
  /-- SLTUI (R307): Unsigned compare with a sign-extended immediate. -/
  | sltui (d : BitVec 5) (a : BitVec 5) (i : BitVec 16)
  /-- LDI (R308): Loads a 16-bit immediate into halfword h, zeroing the rest. -/
  | ldi (d : BitVec 5) (h : BitVec 2) (i : BitVec 16)
  /-- LDI_K (R308): Replaces halfword h of gD with an immediate, keeping the other bits. -/
  | ldiK (d : BitVec 5) (h : BitVec 2) (i : BitVec 16)
  /-- ADDPC (R309): Writes the instruction address plus a signed offset. -/
  | addpc (d : BitVec 5) (i : BitVec 16)
  /-- BEQ (R310): Branches if the registers are equal. -/
  | beq (a : BitVec 5) (b : BitVec 5) (o : BitVec 16)
  /-- BNE (R310): Branches if the registers differ. -/
  | bne (a : BitVec 5) (b : BitVec 5) (o : BitVec 16)
  /-- BLT (R310): Branches if less, signed. -/
  | blt (a : BitVec 5) (b : BitVec 5) (o : BitVec 16)
  /-- BGE (R310): Branches if greater or equal, signed. -/
  | bge (a : BitVec 5) (b : BitVec 5) (o : BitVec 16)
  /-- BLTU (R310): Branches if less, unsigned. -/
  | bltu (a : BitVec 5) (b : BitVec 5) (o : BitVec 16)
  /-- BGEU (R310): Branches if greater or equal, unsigned. -/
  | bgeu (a : BitVec 5) (b : BitVec 5) (o : BitVec 16)
  /-- J (R311): Jumps PC-relative and links pc+4 into gD. -/
  | j (d : BitVec 5) (o : BitVec 21)
  /-- JR (R311): Jumps to register plus offset and links; misaligned target traps. -/
  | jr (d : BitVec 5) (a : BitVec 5) (i : BitVec 16)
  /-- LD (R313): Loads 1 to 8 bytes sign-extended, optionally acquire at a scope. -/
  | ld (d : BitVec 5) (a : BitVec 5) (w : BitVec 2) (o : BitVec 1) (s : BitVec 3) (i : BitVec 10)
  /-- LDU (R313): Loads 1 to 8 bytes zero-extended, optionally acquire. -/
  | ldu (d : BitVec 5) (a : BitVec 5) (w : BitVec 2) (o : BitVec 1) (s : BitVec 3) (i : BitVec 10)
  /-- ST (R313): Stores 1 to 8 bytes, optionally release at a scope. -/
  | st (d : BitVec 5) (a : BitVec 5) (w : BitVec 2) (o : BitVec 1) (s : BitVec 3) (i : BitVec 10)
  /-- AMO (R315): Atomic read-modify-write of a word or double with order and scope. -/
  | amo (d : BitVec 5) (a : BitVec 5) (b : BitVec 5) (o : BitVec 2) (s : BitVec 3) (w : BitVec 1) (p : BitVec 4)
  /-- CAS (R316): Atomic compare-and-swap of a word or double. -/
  | cas (d : BitVec 5) (a : BitVec 5) (b : BitVec 5) (o : BitVec 2) (s : BitVec 3) (w : BitVec 1)
  /-- FADD (R321): Scalar floating-point add. -/
  | fadd (d : BitVec 5) (a : BitVec 5) (b : BitVec 5) (r : BitVec 3) (p : BitVec 1)
  /-- FSUB (R321): Scalar floating-point subtract. -/
  | fsub (d : BitVec 5) (a : BitVec 5) (b : BitVec 5) (r : BitVec 3) (p : BitVec 1)
  /-- FMUL (R321): Scalar floating-point multiply. -/
  | fmul (d : BitVec 5) (a : BitVec 5) (b : BitVec 5) (r : BitVec 3) (p : BitVec 1)
  /-- FDIV (R321): Scalar floating-point divide. -/
  | fdiv (d : BitVec 5) (a : BitVec 5) (b : BitVec 5) (r : BitVec 3) (p : BitVec 1)
  /-- FSQRT (R321): Scalar floating-point square root. -/
  | fsqrt (d : BitVec 5) (a : BitVec 5) (r : BitVec 3) (p : BitVec 1)
  /-- FMIN (R321): Scalar floating-point minimum. -/
  | fmin (d : BitVec 5) (a : BitVec 5) (b : BitVec 5) (p : BitVec 1)
  /-- FMAX (R321): Scalar floating-point maximum. -/
  | fmax (d : BitVec 5) (a : BitVec 5) (b : BitVec 5) (p : BitVec 1)
  /-- FCMP (R322): Scalar floating-point compare EQ, LT, LE or UN. -/
  | fcmp (d : BitVec 5) (a : BitVec 5) (b : BitVec 5) (p : BitVec 1) (c : BitVec 2)
  /-- FCLASS (R323): Sets one class bit of a floating-point value. -/
  | fclass (d : BitVec 5) (a : BitVec 5) (p : BitVec 1)
  /-- FMA (R324): Scalar fused multiply-add with one rounding. -/
  | fma (d : BitVec 5) (a : BitVec 5) (b : BitVec 5) (c : BitVec 5) (r : BitVec 3) (p : BitVec 1)
  /-- FCVT (R325): Converts between I32, I64, F32 and F64. -/
  | fcvt (d : BitVec 5) (a : BitVec 5) (u : BitVec 1) (s : BitVec 4) (t : BitVec 4) (r : BitVec 3)
  /-- FENCE (R318): Orders selected kinds of earlier and later accesses at a scope. -/
  | fence (s : BitVec 3) (k : BitVec 4)
  /-- WAIT (R401): Waits for event latch bits in a mask and clears those found. -/
  | wait (d : BitVec 5) (m : BitVec 6)
  /-- BARJ (R402): Arrives at a gang barrier and waits for the episode's release. -/
  | barj (d : BitVec 5) (i : BitVec 3)
  /-- BARA (R402): Arrives at a gang barrier and returns the episode. -/
  | bara (d : BitVec 5) (i : BitVec 3)
  /-- BARW (R402): Sleeps until a barrier episode is released. -/
  | barw (a : BitVec 5) (i : BitVec 3)
  /-- BARL (R402): Leaves a gang barrier. -/
  | barl (i : BitVec 3)
  /-- MSG (R403): Sends an active message to a core, optionally with reply and token. -/
  | msg (a : BitVec 5) (b : BitVec 5) (t : BitVec 1) (r : BitVec 1)
  /-- MRET (R152): Ends a handler, sending reply and token as the message asks. -/
  | mret (a : BitVec 5)
  /-- TOKEN (R404): Delivers tokens to a token word. -/
  | token (a : BitVec 5) (b : BitVec 5)
  /-- TEXIT (R405): Commits the strip, closes session and lease, drains queues and ends the hart as done. -/
  | texit
  /-- TFAIL (R405): Aborts the strip and ends the hart as a failure of its node. -/
  | tfail (a : BitVec 5)
  /-- TRAP (R407): Takes the TRAP instruction cause with TVAL from a register. -/
  | trap (a : BitVec 5)
  /-- TRET (R229): Returns from a trap frame, replaying or abandoning an aborted strip. -/
  | tret
  /-- BRK (R407): Takes Breakpoint with TVAL 0. -/
  | brk
  /-- CFLUSH (R408): Invalidates an instruction L1 line over a reach. -/
  | cflush (a : BitVec 5) (s : BitVec 3)
  /-- TLBI (R409): Drops cached translations by page, root or all. -/
  | tlbi (a : BitVec 5) (b : BitVec 5) (m : BitVec 2)
  /-- SRD (R406): Reads a system register. -/
  | srd (d : BitVec 5) (n : BitVec 12)
  /-- SWR (R406): Writes a system register under R5. -/
  | swr (a : BitVec 5) (n : BitVec 12)
  /-- SRS (R406): Reads a system register and sets bits indivisibly. -/
  | srs (d : BitVec 5) (a : BitVec 5) (n : BitVec 12)
  /-- SRC (R406): Reads a system register and clears bits indivisibly. -/
  | src (d : BitVec 5) (a : BitVec 5) (n : BitVec 12)
  /-- VLEASE (R390): Sets the hart's lease request. -/
  | vlease (d : BitVec 5) (a : BitVec 5)
  /-- VSETL (R391): Ends the strip, applies the grant and opens a new strip with VL and format. -/
  | vsetl (d : BitVec 5) (a : BitVec 5) (s : BitVec 1) (b : BitVec 1) (f : BitVec 4)
  /-- VFETCH (R392): Queues a vector block and adds a replay-list entry. -/
  | vfetch (a : BitVec 5)
  /-- VSYNC (R393): Waits for the vector queue to empty and returns block status. -/
  | vsync (d : BitVec 5)
  /-- VCOMMIT (R394): Commits the strip and opens a new one with the same settings. -/
  | vcommit
  /-- VREL (R394): Ends the strip and releases the lease. -/
  | vrel
  /-- MBEGIN (R368): Opens an FP or INT matrix session. -/
  | mbegin (k : BitVec 1)
  /-- MEND (R369): Closes the matrix session and frees its Marrow entries. -/
  | mend
  /-- QSET (R395): Loads a stream register from a descriptor. -/
  | qset (a : BitVec 5) (q : BitVec 4)
  /-- QSET_OFF (R395): Makes a stream register inactive. -/
  | qsetOff (q : BitVec 4)
  /-- QPOS (R395): Returns and sets a stream's IDX. -/
  | qpos (d : BitVec 5) (a : BitVec 5) (q : BitVec 4)
  /-- QPOS_RD (R395): Returns a stream's IDX without changing it. -/
  | qposRd (d : BitVec 5) (q : BitVec 4)
  /-- QCOPY (R396): Issues a stream-to-stream copy entry to a copy queue. -/
  | qcopy (d : BitVec 5) (a : BitVec 5) (t : BitVec 4) (k : BitVec 1) (s : BitVec 4)
  /-- QPUT (R396): Issues a fill entry writing a value to a stream. -/
  | qput (d : BitVec 5) (a : BitVec 5) (b : BitVec 5) (k : BitVec 1) (t : BitVec 4)
  /-- QFENCE (R398): Orders entries of the named queues at a scope. -/
  | qfence (s : BitVec 3) (x : BitVec 1) (y : BitVec 1) (z : BitVec 1)
  /-- SWARM (R399): Arms a sync word with a target and zero count. -/
  | swarm (d : BitVec 5) (a : BitVec 5) (b : BitVec 5)
  /-- SWWAIT (R399): Waits until a sync word's generation reaches a value. -/
  | swwait (d : BitVec 5) (a : BitVec 5) (b : BitVec 5)
  /-- XPUT (R400): Queues a fabric write to a remote package. -/
  | xput (d : BitVec 5) (a : BitVec 5) (b : BitVec 5)
  /-- XGET (R400): Queues a fabric read from a remote package. -/
  | xget (d : BitVec 5) (a : BitVec 5) (b : BitVec 5)
  /-- XSIG (R400): Queues delivery of tokens at a remote package. -/
  | xsig (a : BitVec 5) (b : BitVec 5)
  -- vector words
  /-- VADD (R330): Vector integer add. -/
  | vadd (f : VFields)
  /-- VSUB (R330): Vector integer subtract. -/
  | vsub (f : VFields)
  /-- VMUL (R330): Vector integer multiply, low bits. -/
  | vmul (f : VFields)
  /-- VMULH (R330): Vector signed multiply, high bits. -/
  | vmulh (f : VFields)
  /-- VMULHU (R330): Vector unsigned multiply, high bits. -/
  | vmulhu (f : VFields)
  /-- VMAD (R330): Vector integer multiply-add. -/
  | vmad (f : VFields)
  /-- VMIN (R330): Vector signed minimum. -/
  | vmin (f : VFields)
  /-- VMAX (R330): Vector signed maximum. -/
  | vmax (f : VFields)
  /-- VMINU (R330): Vector unsigned minimum. -/
  | vminu (f : VFields)
  /-- VMAXU (R330): Vector unsigned maximum. -/
  | vmaxu (f : VFields)
  /-- VAND (R330): Vector bitwise AND. -/
  | vand (f : VFields)
  /-- VOR (R330): Vector bitwise OR. -/
  | vor (f : VFields)
  /-- VXOR (R330): Vector bitwise XOR. -/
  | vxor (f : VFields)
  /-- VANDN (R330): Vector AND NOT. -/
  | vandn (f : VFields)
  /-- VSHL (R330): Vector shift left. -/
  | vshl (f : VFields)
  /-- VSHR (R330): Vector logical shift right. -/
  | vshr (f : VFields)
  /-- VSAR (R330): Vector arithmetic shift right. -/
  | vsar (f : VFields)
  /-- VADDS (R330): Vector signed saturating add. -/
  | vadds (f : VFields)
  /-- VSUBS (R330): Vector signed saturating subtract. -/
  | vsubs (f : VFields)
  /-- VADDSU (R330): Vector unsigned saturating add. -/
  | vaddsu (f : VFields)
  /-- VSUBSU (R330): Vector unsigned saturating subtract. -/
  | vsubsu (f : VFields)
  /-- VABS (R330): Vector integer absolute value. -/
  | vabs (f : VFields)
  /-- VFADD (R331): Vector floating-point add. -/
  | vfadd (f : VFields)
  /-- VFSUB (R331): Vector floating-point subtract. -/
  | vfsub (f : VFields)
  /-- VFMUL (R331): Vector floating-point multiply. -/
  | vfmul (f : VFields)
  /-- VFDIV (R331): Vector floating-point divide. -/
  | vfdiv (f : VFields)
  /-- VFSQRT (R331): Vector floating-point square root. -/
  | vfsqrt (f : VFields)
  /-- VFMA (R331): Vector fused multiply-add. -/
  | vfma (f : VFields)
  /-- VFMIN (R331): Vector floating-point minimum. -/
  | vfmin (f : VFields)
  /-- VFMAX (R331): Vector floating-point maximum. -/
  | vfmax (f : VFields)
  /-- VFSGN (R332): Vector sign injection. -/
  | vfsgn (f : VFields)
  /-- VFRCP (R333): Vector reciprocal. -/
  | vfrcp (f : VFields)
  /-- VFRSQ (R333): Vector reciprocal square root. -/
  | vfrsq (f : VFields)
  /-- VFEXP2F (R334): Vector F32 power of two. -/
  | vfexp2f (f : VFields)
  /-- VFRINT (R335): Vector round to integral value. -/
  | vfrint (f : VFields)
  /-- VFSCALE (R335): Vector multiply by a power of two. -/
  | vfscale (f : VFields)
  /-- VFGETX (R335): Vector extract exponent. -/
  | vfgetx (f : VFields)
  /-- VFCLASS (R336): Vector class test into a mask. -/
  | vfclass (f : VFields)
  /-- VFCMP (R336): Vector floating-point compare into a mask. -/
  | vfcmp (f : VFields)
  /-- VCVT (R337): Vector format conversion. -/
  | vcvt (f : VFields)
  /-- VQMX (R338): Quantises elements into MX blocks with E8M0 scales. -/
  | vqmx (f : VFields)
  /-- VCMP (R339): Vector integer compare into a mask. -/
  | vcmp (f : VFields)
  /-- MAND (R340): Mask AND. -/
  | mand (f : VFields)
  /-- MOR (R340): Mask OR. -/
  | mor (f : VFields)
  /-- MXOR (R340): Mask XOR. -/
  | mxor (f : VFields)
  /-- MANDN (R340): Mask AND NOT. -/
  | mandn (f : VFields)
  /-- MPOP (R341): Counts set active mask bits into a result slot. -/
  | mpop (f : VFields)
  /-- MFIRST (R341): Finds the first set active mask bit. -/
  | mfirst (f : VFields)
  /-- MSBF (R341): Sets mask bits before the first set bit. -/
  | msbf (f : VFields)
  /-- VCONF (R342): Detects equal values among active elements. -/
  | vconf (f : VFields)
  /-- VMOV (R343): Vector move. -/
  | vmov (f : VFields)
  /-- VMERGE (R343): Selects between two sources by mask. -/
  | vmerge (f : VFields)
  /-- VSHUF (R345): Gathers elements across the register by index. -/
  | vshuf (f : VFields)
  /-- VSWZ (R344): Permutes within each element group. -/
  | vswz (f : VFields)
  /-- VSLIDEUP (R346): Slides elements up by n. -/
  | vslideup (f : VFields)
  /-- VSLIDEDN (R346): Slides elements down by n. -/
  | vslidedn (f : VFields)
  /-- VBCAST (R343): Broadcasts a scalar to every element. -/
  | vbcast (f : VFields)
  /-- VCOMP (R347): Compresses selected elements. -/
  | vcomp (f : VFields)
  /-- VEXPD (R347): Expands elements to selected positions. -/
  | vexpd (f : VFields)
  /-- VIDX (R343): Writes element indices plus a base. -/
  | vidx (f : VFields)
  /-- VEXT (R348): Extracts one element into a result slot. -/
  | vext (f : VFields)
  /-- VINS (R343): Inserts a scalar into one element. -/
  | vins (f : VFields)
  /-- VRED (R349): Integer reduction into a result slot. -/
  | vred (f : VFields)
  /-- VFRED (R350): Tree floating-point reduction into a result slot. -/
  | vfred (f : VFields)
  /-- VFREDO (R351): Ordered floating-point reduction into a result slot. -/
  | vfredo (f : VFields)
  /-- VLD (R356): Walking vector load, fault-only-first beyond element 0. -/
  | vld (f : VFields)
  /-- VST (R357): Walking vector store into the strip store buffer. -/
  | vst (f : VFields)
  /-- VGATH (R356): Indexed vector gather. -/
  | vgath (f : VFields)
  /-- VSCAT (R357): Indexed vector scatter into the store buffer. -/
  | vscat (f : VFields)
  /-- VGLNK (R359): Linked gather that makes a link per element. -/
  | vglnk (f : VFields)
  /-- VSCND (R360): Commit point; conditional scatter writing where links survive. -/
  | vscnd (f : VFields)
  /-- VAMO (R362): Commit point; vector atomic operation on indexed locations. -/
  | vamo (f : VFields)
  /-- VWAITV (R363): Commit point; timed wait for indexed or walked values to meet a condition. -/
  | vwaitv (f : VFields)
  /-- VPREF (R365): Prefetches stream lines without faults. -/
  | vpref (f : VFields)
  /-- MZERO (R376): Zeroes a tile and resets its k-step counter. -/
  | mzero (f : VFields)
  /-- MOPA (R377): Accumulates FP outer products into a tile. -/
  | mopa (f : VFields)
  /-- MOPAI (R378): Accumulates integer outer products with Marrow carries. -/
  | mopai (f : VFields)
  /-- MOPAX (R377): Accumulates MX-scaled outer products into a tile. -/
  | mopax (f : VFields)
  /-- MDRAIN (R380): Drains a band of a tile into a vector register. -/
  | mdrain (f : VFields)
  /-- MFILL (R379): Fills a band of a tile from a vector register. -/
  | mfill (f : VFields)
  /-- VBAR (R162): Convoy barrier: starts only when every lane has completed earlier convoys. -/
  | vbar (f : VFields)
  /-- VNOP (R159): No operation in a convoy. -/
  | vnop (f : VFields)
  /-- VSTOP (R159): Ends the vector block. -/
  | vstop (f : VFields)
  -- events
  /-- BLOCK_FINISH (R158): A vector block's last convoy passes its residue checks and the entry leaves the vector queue. -/
  | blockFinish (h : HartId)
  /-- VECTOR_TRAP_TAKE (R226): A pending vector trap is taken at the next instruction boundary at TDEPTH 0. -/
  | vectorTrapTake (h : HartId)
  /-- ASYNC_EVENT_TAKE (R225): A held asynchronous event is taken at an instruction boundary at TDEPTH 0. -/
  | asyncEventTake (h : HartId)
  /-- BREAKPOINT (R268): A scalar or vector breakpoint matches and Breakpoint is taken. -/
  | breakpoint (h : HartId)
  /-- RESIDUE_MISMATCH (R231): A residue checker mismatch aborts the strip, counts on Pods and replays at once. -/
  | residueMismatch (h : HartId) (positions : List Nat)
  /-- MESSAGE_ARRIVE (R151): An active message enters a core's message queue. -/
  | messageArrive (k : CoreId)
  /-- HANDLER_START (R151): The message at the queue head starts its handler in slot 7. -/
  | handlerStart (k : CoreId)
  /-- HANDLER_OVERRUN (R153): A handler issuing a 257th instruction without MRET fails. -/
  | handlerOverrun (k : CoreId)
  /-- REPLY_ARRIVE (R152): A reply reaches its sender, setting EVR and EVL.REPLY and lowering OUT. -/
  | replyArrive (h : HartId)
  /-- PING (R154): Built-in handler 0 replies 0. -/
  | ping (k : CoreId)
  /-- RD (R154): Built-in handler 1 loads 8 bytes and replies with them. -/
  | rd (k : CoreId)
  /-- WR (R154): Built-in handler 2 stores 8 bytes. -/
  | wr (k : CoreId)
  /-- AADD (R154): Built-in handler 3 atomically adds and replies with the old value. -/
  | aadd (k : CoreId)
  /-- SWAP (R154): Built-in handler 4 atomically exchanges. -/
  | swap (k : CoreId)
  /-- CAS_BUILTIN (R154): Built-in handler 5 compares and stores. -/
  | casBuiltin (k : CoreId)
  /-- COPY (R154): Built-in handler 6 copies up to 4,096 bytes. -/
  | copy (k : CoreId)
  /-- SWBUMP (R154): Built-in handler 7 counts bytes at a sync word. -/
  | swbump (k : CoreId)
  /-- EVSET (R154): Built-in handler 8 sets EVL.USER of a hart on the target core. -/
  | evset (k : CoreId)
  /-- COPY_ENTRY (R396): A copy queue entry performs its elements and counts at its sync word. -/
  | copyEntry (h : HartId) (queue : Bool)
  /-- FABRIC_ENTRY (R400): A fabric queue entry performs its transfer or token delivery. -/
  | fabricEntry (h : HartId) (reply : RemoteReply)
  /-- LOCK_GRANT (R361): The package grants the linked-update lock to a waiting VGLNK. -/
  | lockGrant
  /-- LOCK_TIMEOUT (R361): A locked-mode lock ends 65,536 cycles after its grant. -/
  | lockTimeout
  /-- VWAITV_WAKE (R363): A write to a watched line makes a VWAITV re-read its elements. -/
  | vwaitvWake (h : HartId)
  /-- VWAITV_TIMEOUT (R363): The VWAITV deadline passes and the unsatisfied mask is written. -/
  | vwaitvTimeout (h : HartId)
  /-- STEWARD_SERVICE_DONE (R183): The page copy completes or fails and the stalled accesses resume. -/
  | stewardServiceDone (die : Nat)
  /-- STEWARD_RETRY (R186): A waiting service retries when traffic drains, a node leaves RUNNING or TAIL moves. -/
  | stewardRetry (die : Nat)
  /-- ARBITER_ROUND (R130): Every 64 cycles the arbiter applies retirements and releases, grants, shrinks and grows leases. -/
  | arbiterRound (die clu : Nat)
  /-- REVOCATION_DEADLINE (R131): A head's shortfall lasts 2,048 cycles and leases are revoked by force. -/
  | revocationDeadline (die clu : Nat)
  /-- DRAIN_TIMEOUT (R232): No strip boundary comes within 2,048 cycles and the revocation stops, settles and spills mid-strip. -/
  | drainTimeout (h : HartId)
  /-- SPILL_DONE (R232): The spill ends; the lease becomes SUSPENDED and its Pods and quota free. -/
  | spillDone (h : HartId)
  /-- CANCEL_LAND (R108): A cancel request lands at a boundary or strip end and the hart stops. -/
  | cancelLand (h : HartId)
  /-- CANCEL_TIMEOUT (R108): A strip still open 2,048 cycles after a cancel request is revoked by force. -/
  | cancelTimeout (h : HartId)
  /-- HART_RETIRE (R99): A hart retires after its queues empty; the engine sets its done bit or counts it cancelled. -/
  | hartRetire (h : HartId)
  /-- PREEMPT (R238): Writing PREEMPT revokes the named hart's lease and stops it. -/
  | preempt (die n : Nat)
  /-- PREEMPT_COMPLETE (R238): Queues empty; the scalar image is written and the slot freed. -/
  | preemptComplete (h : HartId)
  /-- PREEMPT_RESTART (R238): The engine restarts a pre-empted hart in a free slot from its image. -/
  | preemptRestart (die : Nat)
  /-- HART_MOVE (R101): The engines move a hart between dies at its strip boundary. -/
  | hartMove (h : HartId) (die : Nat)
  /-- MOVE_TIMEOUT (R101): No strip boundary within 2,048 cycles and the engine picks another hart. -/
  | moveTimeout (h : HartId)
  /-- GATTACH (R85): Checks and attaches a graph, binding its token words. -/
  | gattach (addr : BitVec 56)
  /-- GDETACH (R86): Removes a graph's bindings unless it has live nodes. -/
  | gdetach (addr : BitVec 56)
  /-- TOKEN_STEP (R80): Tokens are delivered indivisibly to a token word, reloading it in a new generation. -/
  | tokenStep (die : Nat)
  /-- NODE_DISPATCH (R93): The home engine takes a ready node and places its gang or returns it to its queue. -/
  | nodeDispatch (die : Nat)
  /-- RESERVATION (R94): A node that has waited 64 µs reserves its dies. -/
  | reservation (die : Nat)
  /-- FOLDED_HART_START (R98): A later HIX of a folded gang starts when a place frees. -/
  | foldedHartStart (die : Nat)
  /-- PREPARE (R41): A participating engine reserves and starts harts, answering ACK or NACK. -/
  | prepare (launch die : Nat)
  /-- ACK (R41): The home engine receives an ACK and sends COMMIT when all are in. -/
  | ack (launch die : Nat)
  /-- NACK (R42): A NACK fails the launch and returns the node to READY. -/
  | nack (launch die : Nat)
  /-- COMMIT (R41): A participating engine commits its harts, releasing held barriers, TEXITs and TFAILs. -/
  | commit (launch die : Nat)
  /-- ABORT (R42): A participating engine cancels its prepared harts. -/
  | abort (launch die : Nat)
  /-- LAUNCH_TIMEOUT (R42): LAUNCHTO expires with ACKs missing; a retry is counted. -/
  | launchTimeout (launch : Nat)
  /-- WALK_VISIT (R111): The cancellation walk visits one node and records the step in CURSOR. -/
  | walkVisit (header : Nat)
  /-- TRACE_START (R269): Writing TRCTL.EN 1 starts a trace session or refuses it. -/
  | traceStart (die session : Nat)
  /-- TRACE_BATCH_WRITE (R271): Staged trace records are written and WPOS released. -/
  | traceBatchWrite (die session : Nat)
  /-- STWTAIL_WRITE (R184): Advances the steward ring tail if the value is acceptable. -/
  | stwtailWrite (die : Nat) (v : Word)
  /-- STWRING_WRITE (R184): Sets ring placement and size, emptying a non-empty ring. -/
  | stwringWrite (die : Nat) (v : Word)
  /-- PODRETIRE (R25): Retires a Pod: revokes its lease, scrubs it and regrants. -/
  | podretire (die pod : Nat)
  /-- EOL_WRITE (R23): Writing PODHLTH.EOL retires the Pod if below HMARGIN. -/
  | eolWrite (die pod : Nat) (v : BitVec 16)
  /-- HMARGIN_WRITE (R23): Writing HMARGIN retires live Pods whose EOL falls below it. -/
  | hmarginWrite (die : Nat) (v : BitVec 16)
  /-- THERMAL_SAMPLE (R17): Every 10 µs each sensor is sampled, setting ALERT and CRIT and raising thermal alerts. -/
  | thermalSample (die : Nat) (temps : List (Nat × BitVec 12))
  /-- CLAMP (R14): A cluster sensor at 105 °C clamps the throttle to min(N, 4) within 1 µs. -/
  | clamp (die clu : Nat)
  /-- POWER_MEASURE (R21): Every 100 µs each die updates PWRNOW. -/
  | powerMeasure (die : Nat) (watts : BitVec 16)
  /-- FLIT_RECEIVE (R35): A flit arrives: CRC and field checks, NAK, drop or delivery. -/
  | flitReceive (die port : Nat) (f : Flit)
  /-- RETRAIN (R36): After eight replays of one flit the link or port retrains both lanes. -/
  | retrain (l : LinkId)
  /-- RETRAIN_DONE (R36): Retraining ends, dropping failed lanes and taking ports or links down. -/
  | retrainDone (l : LinkId) (lanes : Nat)
  /-- SWITCHOVER_END (R32): Replay over the detour ends and held traffic resumes. -/
  | switchoverEnd (link : Nat)
  /-- PACKAGE_UNREACHABLE (R38): A remote request has no response within 1 ms, or no route exists. -/
  | packageUnreachable (pkg : Nat)
  /-- HOST_FETCHADD (R53): A host FetchAdd on the token page delivers tokens. -/
  | hostFetchadd (off : Nat) (a : Word)
  /-- HOST_MEMORY_READ (R50): A host read of the device memory window under HAPT key slots. -/
  | hostMemoryRead (off n : Nat)
  /-- HOST_MEMORY_WRITE (R50): A host write of the device memory window under HAPT key slots and ownership. -/
  | hostMemoryWrite (off : Nat) (bytes : List Byte)
  /-- HOST_CONFIG_WRITE (R47): A host write to a configuration-window register without behaviour of its own. -/
  | hostConfigWrite (off n : Nat) (v : Word)
  /-- HOST_REFUSED_REQUEST (R47): A host request to a closed window or of a refused kind is aborted or dropped and logged. -/
  | hostRefusedRequest (r : HostRequest)
  /-- RSTREQ_WARM (R51): Host requests a warm start. -/
  | rstreqWarm
  /-- RSTREQ_COLD (R51): Host requests a cold start. -/
  | rstreqCold
  /-- COLD_START (R51): Power-on or PERST# begins a cold start. -/
  | coldStart
  /-- STARTUP_STEP (R27): All dies complete a start-up step and proceed, or halt. -/
  | startupStep (r : StartReport)
  /-- HOST_COMPLETION (R48): A completion for a device request to host memory arrives. -/
  | hostCompletion (data : Option (List Byte))
  /-- HOST_REQUEST_TIMEOUT (R48): A host memory request has no completion within 1 ms and gives Poison. -/
  | hostRequestTimeout
  /-- KEYLOAD (R59): Unwraps and loads a tenant key into a slot. -/
  | keyload
  /-- RELEASE (R62): Releases a key slot, scrubbing its units and signing a receipt. -/
  | release
  /-- AUDSET (R65): Sets and enables or disables an audit range. -/
  | audset
  /-- AUDLOG (R66): Opens an audit log ring for a die. -/
  | audlog
  /-- CHECKPT (R67): Writes a signed checkpoint to a die's audit log. -/
  | checkpt
  /-- ATTEST (R70): Returns a signed attestation quote. -/
  | attest
  /-- IDENT (R69): Returns the identity and wrap keys with the certificate. -/
  | ident
  /-- MAILBOX_DONE (R60): A mailbox command's response stands in MBDATA and BUSY clears. -/
  | mailboxDone
  /-- AUDIT_INTERVAL (R66): At each interval every changed enabled range emits a record. -/
  | auditInterval (die : Nat)
  /-- AUDIT_PENDING_WRITE (R68): Room in the ring lets pending audit records and checkpoints be written. -/
  | auditPendingWrite (die : Nat)
  /-- MSIX_UNMASK (R55): The host clears the mask of an MSI-X entry or of the function, and a vector whose PBA bit is set sends its one merged message. -/
  | msixUnmask (vector : Option Nat)
  /-- BADCMD (R61): A host write of an unknown command code to MBCMD completes with status BADCMD at any STEP and has no other effect. -/
  | badcmd
  /-- HOT_RESET (R51): A Hot Reset or a link-down of the PCIe port occurs, and it does not start the dies again. -/
  | hotReset
  deriving DecidableEq, Repr

end Sys2Proof
end

