-- ==== Sys2Proof/Decode.lean ====
section
/-! DEFINITION. Instruction words (R281-R292): the decoder, total on any word and rejecting by name; the
encoder; the checks that R290 and R291 make on the fields of a word. -/

namespace Sys2Proof

/-- Why a word is no instruction (R290, R291). -/
inductive Reject where
  /-- The word 0x0000_0000. -/
  | allZeros
  /-- The word 0xFFFF_FFFF. -/
  | allOnes
  /-- The extension space: OP 0x38-0x3B, VOP 0x70-0x73; raises Emulation (R292). -/
  | extension
  /-- An opcode that R283 or R289 leaves unassigned. -/
  | unassigned
  /-- A function code that is unassigned, or a field that must be 0 and is not. -/
  | reservedField
  deriving DecidableEq, Repr


/-- The words of OP 0x01 (ADD, SUB, AND, OR, XOR, ANDN, SHL, SHR, SAR, SLT, SLTU, MIN, MAX, MINU, MAXU, MUL, MULH, MULHU, DIV, DIVU, REM, REMU, CLZ, CTZ, POPC, SEXT, ZEXT; R305, R306). -/
def decodeOp01 (w : Nat) : Except Reject Instr :=
  if bitsOf w 10 0 = 0x0 then .ok (.add (BitVec.ofNat 5 (w / 2 ^ 21)) (BitVec.ofNat 5 (w / 2 ^ 16)) (BitVec.ofNat 5 (w / 2 ^ 11)))
  else if bitsOf w 10 0 = 0x1 then .ok (.sub (BitVec.ofNat 5 (w / 2 ^ 21)) (BitVec.ofNat 5 (w / 2 ^ 16)) (BitVec.ofNat 5 (w / 2 ^ 11)))
  else if bitsOf w 10 0 = 0x2 then .ok (.and (BitVec.ofNat 5 (w / 2 ^ 21)) (BitVec.ofNat 5 (w / 2 ^ 16)) (BitVec.ofNat 5 (w / 2 ^ 11)))
  else if bitsOf w 10 0 = 0x3 then .ok (.or (BitVec.ofNat 5 (w / 2 ^ 21)) (BitVec.ofNat 5 (w / 2 ^ 16)) (BitVec.ofNat 5 (w / 2 ^ 11)))
  else if bitsOf w 10 0 = 0x4 then .ok (.xor (BitVec.ofNat 5 (w / 2 ^ 21)) (BitVec.ofNat 5 (w / 2 ^ 16)) (BitVec.ofNat 5 (w / 2 ^ 11)))
  else if bitsOf w 10 0 = 0x5 then .ok (.andn (BitVec.ofNat 5 (w / 2 ^ 21)) (BitVec.ofNat 5 (w / 2 ^ 16)) (BitVec.ofNat 5 (w / 2 ^ 11)))
  else if bitsOf w 10 0 = 0x6 then .ok (.shl (BitVec.ofNat 5 (w / 2 ^ 21)) (BitVec.ofNat 5 (w / 2 ^ 16)) (BitVec.ofNat 5 (w / 2 ^ 11)))
  else if bitsOf w 10 0 = 0x7 then .ok (.shr (BitVec.ofNat 5 (w / 2 ^ 21)) (BitVec.ofNat 5 (w / 2 ^ 16)) (BitVec.ofNat 5 (w / 2 ^ 11)))
  else if bitsOf w 10 0 = 0x8 then .ok (.sar (BitVec.ofNat 5 (w / 2 ^ 21)) (BitVec.ofNat 5 (w / 2 ^ 16)) (BitVec.ofNat 5 (w / 2 ^ 11)))
  else if bitsOf w 10 0 = 0x9 then .ok (.slt (BitVec.ofNat 5 (w / 2 ^ 21)) (BitVec.ofNat 5 (w / 2 ^ 16)) (BitVec.ofNat 5 (w / 2 ^ 11)))
  else if bitsOf w 10 0 = 0xA then .ok (.sltu (BitVec.ofNat 5 (w / 2 ^ 21)) (BitVec.ofNat 5 (w / 2 ^ 16)) (BitVec.ofNat 5 (w / 2 ^ 11)))
  else if bitsOf w 10 0 = 0xB then .ok (.min (BitVec.ofNat 5 (w / 2 ^ 21)) (BitVec.ofNat 5 (w / 2 ^ 16)) (BitVec.ofNat 5 (w / 2 ^ 11)))
  else if bitsOf w 10 0 = 0xC then .ok (.max (BitVec.ofNat 5 (w / 2 ^ 21)) (BitVec.ofNat 5 (w / 2 ^ 16)) (BitVec.ofNat 5 (w / 2 ^ 11)))
  else if bitsOf w 10 0 = 0xD then .ok (.minu (BitVec.ofNat 5 (w / 2 ^ 21)) (BitVec.ofNat 5 (w / 2 ^ 16)) (BitVec.ofNat 5 (w / 2 ^ 11)))
  else if bitsOf w 10 0 = 0xE then .ok (.maxu (BitVec.ofNat 5 (w / 2 ^ 21)) (BitVec.ofNat 5 (w / 2 ^ 16)) (BitVec.ofNat 5 (w / 2 ^ 11)))
  else if bitsOf w 10 0 = 0x10 then .ok (.mul (BitVec.ofNat 5 (w / 2 ^ 21)) (BitVec.ofNat 5 (w / 2 ^ 16)) (BitVec.ofNat 5 (w / 2 ^ 11)))
  else if bitsOf w 10 0 = 0x11 then .ok (.mulh (BitVec.ofNat 5 (w / 2 ^ 21)) (BitVec.ofNat 5 (w / 2 ^ 16)) (BitVec.ofNat 5 (w / 2 ^ 11)))
  else if bitsOf w 10 0 = 0x12 then .ok (.mulhu (BitVec.ofNat 5 (w / 2 ^ 21)) (BitVec.ofNat 5 (w / 2 ^ 16)) (BitVec.ofNat 5 (w / 2 ^ 11)))
  else if bitsOf w 10 0 = 0x14 then .ok (.div (BitVec.ofNat 5 (w / 2 ^ 21)) (BitVec.ofNat 5 (w / 2 ^ 16)) (BitVec.ofNat 5 (w / 2 ^ 11)))
  else if bitsOf w 10 0 = 0x15 then .ok (.divu (BitVec.ofNat 5 (w / 2 ^ 21)) (BitVec.ofNat 5 (w / 2 ^ 16)) (BitVec.ofNat 5 (w / 2 ^ 11)))
  else if bitsOf w 10 0 = 0x16 then .ok (.rem (BitVec.ofNat 5 (w / 2 ^ 21)) (BitVec.ofNat 5 (w / 2 ^ 16)) (BitVec.ofNat 5 (w / 2 ^ 11)))
  else if bitsOf w 10 0 = 0x17 then .ok (.remu (BitVec.ofNat 5 (w / 2 ^ 21)) (BitVec.ofNat 5 (w / 2 ^ 16)) (BitVec.ofNat 5 (w / 2 ^ 11)))
  else if bitsOf w 15 0 = 0x18 then .ok (.clz (BitVec.ofNat 5 (w / 2 ^ 21)) (BitVec.ofNat 5 (w / 2 ^ 16)))
  else if bitsOf w 15 0 = 0x19 then .ok (.ctz (BitVec.ofNat 5 (w / 2 ^ 21)) (BitVec.ofNat 5 (w / 2 ^ 16)))
  else if bitsOf w 15 0 = 0x1A then .ok (.popc (BitVec.ofNat 5 (w / 2 ^ 21)) (BitVec.ofNat 5 (w / 2 ^ 16)))
  else if bitsOf w 5 0 = 0x1C ∧ bitsOf w 15 8 = 0x0 then .ok (.sext (BitVec.ofNat 5 (w / 2 ^ 21)) (BitVec.ofNat 5 (w / 2 ^ 16)) (BitVec.ofNat 2 (w / 2 ^ 6)))
  else if bitsOf w 5 0 = 0x1D ∧ bitsOf w 15 8 = 0x0 then .ok (.zext (BitVec.ofNat 5 (w / 2 ^ 21)) (BitVec.ofNat 5 (w / 2 ^ 16)) (BitVec.ofNat 2 (w / 2 ^ 6)))
  else .error .reservedField

/-- The words of OP 0x02 (ADDI; R307). -/
def decodeOp02 (w : Nat) : Except Reject Instr :=
  .ok (.addi (BitVec.ofNat 5 (w / 2 ^ 21)) (BitVec.ofNat 5 (w / 2 ^ 16)) (BitVec.ofNat 16 (w / 2 ^ 0)))

/-- The words of OP 0x03 (ANDI; R307). -/
def decodeOp03 (w : Nat) : Except Reject Instr :=
  .ok (.andi (BitVec.ofNat 5 (w / 2 ^ 21)) (BitVec.ofNat 5 (w / 2 ^ 16)) (BitVec.ofNat 16 (w / 2 ^ 0)))

/-- The words of OP 0x04 (ORI; R307). -/
def decodeOp04 (w : Nat) : Except Reject Instr :=
  .ok (.ori (BitVec.ofNat 5 (w / 2 ^ 21)) (BitVec.ofNat 5 (w / 2 ^ 16)) (BitVec.ofNat 16 (w / 2 ^ 0)))

/-- The words of OP 0x05 (XORI; R307). -/
def decodeOp05 (w : Nat) : Except Reject Instr :=
  .ok (.xori (BitVec.ofNat 5 (w / 2 ^ 21)) (BitVec.ofNat 5 (w / 2 ^ 16)) (BitVec.ofNat 16 (w / 2 ^ 0)))

/-- The words of OP 0x06 (SHLI; R307). -/
def decodeOp06 (w : Nat) : Except Reject Instr :=
  if bitsOf w 15 6 = 0x0 then .ok (.shli (BitVec.ofNat 5 (w / 2 ^ 21)) (BitVec.ofNat 5 (w / 2 ^ 16)) (BitVec.ofNat 6 (w / 2 ^ 0)))
  else .error .reservedField

/-- The words of OP 0x07 (SHRI; R307). -/
def decodeOp07 (w : Nat) : Except Reject Instr :=
  if bitsOf w 15 6 = 0x0 then .ok (.shri (BitVec.ofNat 5 (w / 2 ^ 21)) (BitVec.ofNat 5 (w / 2 ^ 16)) (BitVec.ofNat 6 (w / 2 ^ 0)))
  else .error .reservedField

/-- The words of OP 0x08 (SARI; R307). -/
def decodeOp08 (w : Nat) : Except Reject Instr :=
  if bitsOf w 15 6 = 0x0 then .ok (.sari (BitVec.ofNat 5 (w / 2 ^ 21)) (BitVec.ofNat 5 (w / 2 ^ 16)) (BitVec.ofNat 6 (w / 2 ^ 0)))
  else .error .reservedField

/-- The words of OP 0x09 (SLTI; R307). -/
def decodeOp09 (w : Nat) : Except Reject Instr :=
  .ok (.slti (BitVec.ofNat 5 (w / 2 ^ 21)) (BitVec.ofNat 5 (w / 2 ^ 16)) (BitVec.ofNat 16 (w / 2 ^ 0)))

/-- The words of OP 0x0A (SLTUI; R307). -/
def decodeOp0A (w : Nat) : Except Reject Instr :=
  .ok (.sltui (BitVec.ofNat 5 (w / 2 ^ 21)) (BitVec.ofNat 5 (w / 2 ^ 16)) (BitVec.ofNat 16 (w / 2 ^ 0)))

/-- The words of OP 0x0B (LDI, LDI_K; R308). -/
def decodeOp0B (w : Nat) : Except Reject Instr :=
  if bitsOf w 20 18 = 0x0 then .ok (.ldi (BitVec.ofNat 5 (w / 2 ^ 21)) (BitVec.ofNat 2 (w / 2 ^ 16)) (BitVec.ofNat 16 (w / 2 ^ 0)))
  else if bitsOf w 20 18 = 0x1 then .ok (.ldiK (BitVec.ofNat 5 (w / 2 ^ 21)) (BitVec.ofNat 2 (w / 2 ^ 16)) (BitVec.ofNat 16 (w / 2 ^ 0)))
  else .error .reservedField

/-- The words of OP 0x0C (ADDPC; R309). -/
def decodeOp0C (w : Nat) : Except Reject Instr :=
  if bitsOf w 20 16 = 0x0 then .ok (.addpc (BitVec.ofNat 5 (w / 2 ^ 21)) (BitVec.ofNat 16 (w / 2 ^ 0)))
  else .error .reservedField

/-- The words of OP 0x0D (BEQ; R310). -/
def decodeOp0D (w : Nat) : Except Reject Instr :=
  .ok (.beq (BitVec.ofNat 5 (w / 2 ^ 21)) (BitVec.ofNat 5 (w / 2 ^ 16)) (BitVec.ofNat 16 (w / 2 ^ 0)))

/-- The words of OP 0x0E (BNE; R310). -/
def decodeOp0E (w : Nat) : Except Reject Instr :=
  .ok (.bne (BitVec.ofNat 5 (w / 2 ^ 21)) (BitVec.ofNat 5 (w / 2 ^ 16)) (BitVec.ofNat 16 (w / 2 ^ 0)))

/-- The words of OP 0x0F (BLT; R310). -/
def decodeOp0F (w : Nat) : Except Reject Instr :=
  .ok (.blt (BitVec.ofNat 5 (w / 2 ^ 21)) (BitVec.ofNat 5 (w / 2 ^ 16)) (BitVec.ofNat 16 (w / 2 ^ 0)))

/-- The words of OP 0x10 (BGE; R310). -/
def decodeOp10 (w : Nat) : Except Reject Instr :=
  .ok (.bge (BitVec.ofNat 5 (w / 2 ^ 21)) (BitVec.ofNat 5 (w / 2 ^ 16)) (BitVec.ofNat 16 (w / 2 ^ 0)))

/-- The words of OP 0x11 (BLTU; R310). -/
def decodeOp11 (w : Nat) : Except Reject Instr :=
  .ok (.bltu (BitVec.ofNat 5 (w / 2 ^ 21)) (BitVec.ofNat 5 (w / 2 ^ 16)) (BitVec.ofNat 16 (w / 2 ^ 0)))

/-- The words of OP 0x12 (BGEU; R310). -/
def decodeOp12 (w : Nat) : Except Reject Instr :=
  .ok (.bgeu (BitVec.ofNat 5 (w / 2 ^ 21)) (BitVec.ofNat 5 (w / 2 ^ 16)) (BitVec.ofNat 16 (w / 2 ^ 0)))

/-- The words of OP 0x13 (J; R311). -/
def decodeOp13 (w : Nat) : Except Reject Instr :=
  .ok (.j (BitVec.ofNat 5 (w / 2 ^ 21)) (BitVec.ofNat 21 (w / 2 ^ 0)))

/-- The words of OP 0x14 (JR; R311). -/
def decodeOp14 (w : Nat) : Except Reject Instr :=
  .ok (.jr (BitVec.ofNat 5 (w / 2 ^ 21)) (BitVec.ofNat 5 (w / 2 ^ 16)) (BitVec.ofNat 16 (w / 2 ^ 0)))

/-- The words of OP 0x15 (LD; R313). -/
def decodeOp15 (w : Nat) : Except Reject Instr :=
  .ok (.ld (BitVec.ofNat 5 (w / 2 ^ 21)) (BitVec.ofNat 5 (w / 2 ^ 16)) (BitVec.ofNat 2 (w / 2 ^ 14)) (BitVec.ofNat 1 (w / 2 ^ 13)) (BitVec.ofNat 3 (w / 2 ^ 10)) (BitVec.ofNat 10 (w / 2 ^ 0)))

/-- The words of OP 0x16 (LDU; R313). -/
def decodeOp16 (w : Nat) : Except Reject Instr :=
  .ok (.ldu (BitVec.ofNat 5 (w / 2 ^ 21)) (BitVec.ofNat 5 (w / 2 ^ 16)) (BitVec.ofNat 2 (w / 2 ^ 14)) (BitVec.ofNat 1 (w / 2 ^ 13)) (BitVec.ofNat 3 (w / 2 ^ 10)) (BitVec.ofNat 10 (w / 2 ^ 0)))

/-- The words of OP 0x17 (ST; R313). -/
def decodeOp17 (w : Nat) : Except Reject Instr :=
  .ok (.st (BitVec.ofNat 5 (w / 2 ^ 21)) (BitVec.ofNat 5 (w / 2 ^ 16)) (BitVec.ofNat 2 (w / 2 ^ 14)) (BitVec.ofNat 1 (w / 2 ^ 13)) (BitVec.ofNat 3 (w / 2 ^ 10)) (BitVec.ofNat 10 (w / 2 ^ 0)))

/-- The words of OP 0x18 (AMO; R315). -/
def decodeOp18 (w : Nat) : Except Reject Instr :=
  if bitsOf w 5 5 = 0x1 then .ok (.amo (BitVec.ofNat 5 (w / 2 ^ 21)) (BitVec.ofNat 5 (w / 2 ^ 16)) (BitVec.ofNat 5 (w / 2 ^ 11)) (BitVec.ofNat 2 (w / 2 ^ 9)) (BitVec.ofNat 3 (w / 2 ^ 6)) (BitVec.ofNat 1 (w / 2 ^ 4)) (BitVec.ofNat 4 (w / 2 ^ 0)))
  else .error .reservedField

/-- The words of OP 0x19 (CAS; R316). -/
def decodeOp19 (w : Nat) : Except Reject Instr :=
  if bitsOf w 3 0 = 0x0 ∧ bitsOf w 5 5 = 0x1 then .ok (.cas (BitVec.ofNat 5 (w / 2 ^ 21)) (BitVec.ofNat 5 (w / 2 ^ 16)) (BitVec.ofNat 5 (w / 2 ^ 11)) (BitVec.ofNat 2 (w / 2 ^ 9)) (BitVec.ofNat 3 (w / 2 ^ 6)) (BitVec.ofNat 1 (w / 2 ^ 4)))
  else .error .reservedField

/-- The words of OP 0x1A (FADD, FSUB, FMUL, FDIV, FSQRT, FMIN, FMAX, FCMP, FCLASS; R321, R322, R323). -/
def decodeOp1A (w : Nat) : Except Reject Instr :=
  if bitsOf w 2 0 = 0x0 ∧ bitsOf w 10 7 = 0x0 then .ok (.fadd (BitVec.ofNat 5 (w / 2 ^ 21)) (BitVec.ofNat 5 (w / 2 ^ 16)) (BitVec.ofNat 5 (w / 2 ^ 11)) (BitVec.ofNat 3 (w / 2 ^ 4)) (BitVec.ofNat 1 (w / 2 ^ 3)))
  else if bitsOf w 2 0 = 0x0 ∧ bitsOf w 10 7 = 0x1 then .ok (.fsub (BitVec.ofNat 5 (w / 2 ^ 21)) (BitVec.ofNat 5 (w / 2 ^ 16)) (BitVec.ofNat 5 (w / 2 ^ 11)) (BitVec.ofNat 3 (w / 2 ^ 4)) (BitVec.ofNat 1 (w / 2 ^ 3)))
  else if bitsOf w 2 0 = 0x0 ∧ bitsOf w 10 7 = 0x2 then .ok (.fmul (BitVec.ofNat 5 (w / 2 ^ 21)) (BitVec.ofNat 5 (w / 2 ^ 16)) (BitVec.ofNat 5 (w / 2 ^ 11)) (BitVec.ofNat 3 (w / 2 ^ 4)) (BitVec.ofNat 1 (w / 2 ^ 3)))
  else if bitsOf w 2 0 = 0x0 ∧ bitsOf w 10 7 = 0x3 then .ok (.fdiv (BitVec.ofNat 5 (w / 2 ^ 21)) (BitVec.ofNat 5 (w / 2 ^ 16)) (BitVec.ofNat 5 (w / 2 ^ 11)) (BitVec.ofNat 3 (w / 2 ^ 4)) (BitVec.ofNat 1 (w / 2 ^ 3)))
  else if bitsOf w 2 0 = 0x0 ∧ bitsOf w 15 7 = 0x4 then .ok (.fsqrt (BitVec.ofNat 5 (w / 2 ^ 21)) (BitVec.ofNat 5 (w / 2 ^ 16)) (BitVec.ofNat 3 (w / 2 ^ 4)) (BitVec.ofNat 1 (w / 2 ^ 3)))
  else if bitsOf w 2 0 = 0x0 ∧ bitsOf w 10 4 = 0x28 then .ok (.fmin (BitVec.ofNat 5 (w / 2 ^ 21)) (BitVec.ofNat 5 (w / 2 ^ 16)) (BitVec.ofNat 5 (w / 2 ^ 11)) (BitVec.ofNat 1 (w / 2 ^ 3)))
  else if bitsOf w 2 0 = 0x0 ∧ bitsOf w 10 4 = 0x30 then .ok (.fmax (BitVec.ofNat 5 (w / 2 ^ 21)) (BitVec.ofNat 5 (w / 2 ^ 16)) (BitVec.ofNat 5 (w / 2 ^ 11)) (BitVec.ofNat 1 (w / 2 ^ 3)))
  else if bitsOf w 2 2 = 0x0 ∧ bitsOf w 10 4 = 0x38 then .ok (.fcmp (BitVec.ofNat 5 (w / 2 ^ 21)) (BitVec.ofNat 5 (w / 2 ^ 16)) (BitVec.ofNat 5 (w / 2 ^ 11)) (BitVec.ofNat 1 (w / 2 ^ 3)) (BitVec.ofNat 2 (w / 2 ^ 0)))
  else if bitsOf w 2 0 = 0x0 ∧ bitsOf w 15 4 = 0x40 then .ok (.fclass (BitVec.ofNat 5 (w / 2 ^ 21)) (BitVec.ofNat 5 (w / 2 ^ 16)) (BitVec.ofNat 1 (w / 2 ^ 3)))
  else .error .reservedField

/-- The words of OP 0x1B (FMA; R324). -/
def decodeOp1B (w : Nat) : Except Reject Instr :=
  if bitsOf w 1 0 = 0x0 then .ok (.fma (BitVec.ofNat 5 (w / 2 ^ 21)) (BitVec.ofNat 5 (w / 2 ^ 16)) (BitVec.ofNat 5 (w / 2 ^ 11)) (BitVec.ofNat 5 (w / 2 ^ 6)) (BitVec.ofNat 3 (w / 2 ^ 3)) (BitVec.ofNat 1 (w / 2 ^ 2)))
  else .error .reservedField

/-- The words of OP 0x1C (FCVT; R325). -/
def decodeOp1C (w : Nat) : Except Reject Instr :=
  if bitsOf w 15 12 = 0x0 then .ok (.fcvt (BitVec.ofNat 5 (w / 2 ^ 21)) (BitVec.ofNat 5 (w / 2 ^ 16)) (BitVec.ofNat 1 (w / 2 ^ 11)) (BitVec.ofNat 4 (w / 2 ^ 7)) (BitVec.ofNat 4 (w / 2 ^ 3)) (BitVec.ofNat 3 (w / 2 ^ 0)))
  else .error .reservedField

/-- The words of OP 0x1D (FENCE, WAIT, BARJ, BARA, BARW, BARL; R318, R401, R402). -/
def decodeOp1D (w : Nat) : Except Reject Instr :=
  if bitsOf w 3 0 = 0x0 ∧ bitsOf w 25 11 = 0x0 then .ok (.fence (BitVec.ofNat 3 (w / 2 ^ 8)) (BitVec.ofNat 4 (w / 2 ^ 4)))
  else if bitsOf w 3 0 = 0x1 ∧ bitsOf w 20 10 = 0x0 then .ok (.wait (BitVec.ofNat 5 (w / 2 ^ 21)) (BitVec.ofNat 6 (w / 2 ^ 4)))
  else if bitsOf w 3 0 = 0x2 ∧ bitsOf w 20 7 = 0x0 then .ok (.barj (BitVec.ofNat 5 (w / 2 ^ 21)) (BitVec.ofNat 3 (w / 2 ^ 4)))
  else if bitsOf w 3 0 = 0x3 ∧ bitsOf w 20 7 = 0x0 then .ok (.bara (BitVec.ofNat 5 (w / 2 ^ 21)) (BitVec.ofNat 3 (w / 2 ^ 4)))
  else if bitsOf w 3 0 = 0x4 ∧ bitsOf w 15 7 = 0x0 ∧ bitsOf w 25 21 = 0x0 then .ok (.barw (BitVec.ofNat 5 (w / 2 ^ 16)) (BitVec.ofNat 3 (w / 2 ^ 4)))
  else if bitsOf w 3 0 = 0x5 ∧ bitsOf w 25 7 = 0x0 then .ok (.barl (BitVec.ofNat 3 (w / 2 ^ 4)))
  else .error .reservedField

/-- The words of OP 0x1E (MSG, MRET, TOKEN, TEXIT, TFAIL; R152, R403, R404, R405). -/
def decodeOp1E (w : Nat) : Except Reject Instr :=
  if bitsOf w 3 0 = 0x0 ∧ bitsOf w 10 6 = 0x0 ∧ bitsOf w 25 21 = 0x0 then .ok (.msg (BitVec.ofNat 5 (w / 2 ^ 16)) (BitVec.ofNat 5 (w / 2 ^ 11)) (BitVec.ofNat 1 (w / 2 ^ 5)) (BitVec.ofNat 1 (w / 2 ^ 4)))
  else if bitsOf w 15 0 = 0x1 ∧ bitsOf w 25 21 = 0x0 then .ok (.mret (BitVec.ofNat 5 (w / 2 ^ 16)))
  else if bitsOf w 10 0 = 0x2 ∧ bitsOf w 25 21 = 0x0 then .ok (.token (BitVec.ofNat 5 (w / 2 ^ 16)) (BitVec.ofNat 5 (w / 2 ^ 11)))
  else if bitsOf w 25 0 = 0x3 then .ok (.texit)
  else if bitsOf w 15 0 = 0x4 ∧ bitsOf w 25 21 = 0x0 then .ok (.tfail (BitVec.ofNat 5 (w / 2 ^ 16)))
  else .error .reservedField

/-- The words of OP 0x1F (TRAP, TRET, BRK, CFLUSH, TLBI; R229, R407, R408, R409). -/
def decodeOp1F (w : Nat) : Except Reject Instr :=
  if bitsOf w 15 0 = 0x0 ∧ bitsOf w 25 21 = 0x0 then .ok (.trap (BitVec.ofNat 5 (w / 2 ^ 16)))
  else if bitsOf w 25 0 = 0x1 then .ok (.tret)
  else if bitsOf w 25 0 = 0x2 then .ok (.brk)
  else if bitsOf w 3 0 = 0x3 ∧ bitsOf w 15 7 = 0x0 ∧ bitsOf w 25 21 = 0x0 then .ok (.cflush (BitVec.ofNat 5 (w / 2 ^ 16)) (BitVec.ofNat 3 (w / 2 ^ 4)))
  else if bitsOf w 3 0 = 0x4 ∧ bitsOf w 10 6 = 0x0 ∧ bitsOf w 25 21 = 0x0 then .ok (.tlbi (BitVec.ofNat 5 (w / 2 ^ 16)) (BitVec.ofNat 5 (w / 2 ^ 11)) (BitVec.ofNat 2 (w / 2 ^ 4)))
  else .error .reservedField

/-- The words of OP 0x20 (SRD; R406). -/
def decodeOp20 (w : Nat) : Except Reject Instr :=
  if bitsOf w 20 12 = 0x0 then .ok (.srd (BitVec.ofNat 5 (w / 2 ^ 21)) (BitVec.ofNat 12 (w / 2 ^ 0)))
  else .error .reservedField

/-- The words of OP 0x21 (SWR; R406). -/
def decodeOp21 (w : Nat) : Except Reject Instr :=
  if bitsOf w 15 12 = 0x0 ∧ bitsOf w 25 21 = 0x0 then .ok (.swr (BitVec.ofNat 5 (w / 2 ^ 16)) (BitVec.ofNat 12 (w / 2 ^ 0)))
  else .error .reservedField

/-- The words of OP 0x22 (SRS; R406). -/
def decodeOp22 (w : Nat) : Except Reject Instr :=
  if bitsOf w 15 12 = 0x0 then .ok (.srs (BitVec.ofNat 5 (w / 2 ^ 21)) (BitVec.ofNat 5 (w / 2 ^ 16)) (BitVec.ofNat 12 (w / 2 ^ 0)))
  else .error .reservedField

/-- The words of OP 0x23 (SRC; R406). -/
def decodeOp23 (w : Nat) : Except Reject Instr :=
  if bitsOf w 15 12 = 0x0 then .ok (.src (BitVec.ofNat 5 (w / 2 ^ 21)) (BitVec.ofNat 5 (w / 2 ^ 16)) (BitVec.ofNat 12 (w / 2 ^ 0)))
  else .error .reservedField

/-- The words of OP 0x24 (VLEASE, VSETL, VFETCH, VSYNC, VCOMMIT, VREL, MBEGIN, MEND; R368, R369, R390, R391, R392, R393, R394). -/
def decodeOp24 (w : Nat) : Except Reject Instr :=
  if bitsOf w 15 0 = 0x0 then .ok (.vlease (BitVec.ofNat 5 (w / 2 ^ 21)) (BitVec.ofNat 5 (w / 2 ^ 16)))
  else if bitsOf w 3 0 = 0x1 ∧ bitsOf w 15 10 = 0x0 then .ok (.vsetl (BitVec.ofNat 5 (w / 2 ^ 21)) (BitVec.ofNat 5 (w / 2 ^ 16)) (BitVec.ofNat 1 (w / 2 ^ 9)) (BitVec.ofNat 1 (w / 2 ^ 8)) (BitVec.ofNat 4 (w / 2 ^ 4)))
  else if bitsOf w 15 0 = 0x2 ∧ bitsOf w 25 21 = 0x0 then .ok (.vfetch (BitVec.ofNat 5 (w / 2 ^ 16)))
  else if bitsOf w 20 0 = 0x3 then .ok (.vsync (BitVec.ofNat 5 (w / 2 ^ 21)))
  else if bitsOf w 25 0 = 0x4 then .ok (.vcommit)
  else if bitsOf w 25 0 = 0x5 then .ok (.vrel)
  else if bitsOf w 3 0 = 0x6 ∧ bitsOf w 25 5 = 0x0 then .ok (.mbegin (BitVec.ofNat 1 (w / 2 ^ 4)))
  else if bitsOf w 25 0 = 0x7 then .ok (.mend)
  else .error .reservedField

/-- The words of OP 0x25 (QSET, QSET_OFF, QPOS, QPOS_RD, QCOPY, QPUT, QFENCE, SWARM, SWWAIT; R395, R396, R398, R399). -/
def decodeOp25 (w : Nat) : Except Reject Instr :=
  if bitsOf w 3 0 = 0x0 ∧ bitsOf w 15 8 = 0x0 ∧ bitsOf w 25 21 = 0x0 then .ok (.qset (BitVec.ofNat 5 (w / 2 ^ 16)) (BitVec.ofNat 4 (w / 2 ^ 4)))
  else if bitsOf w 3 0 = 0x0 ∧ bitsOf w 25 8 = 0x1 then .ok (.qsetOff (BitVec.ofNat 4 (w / 2 ^ 4)))
  else if bitsOf w 3 0 = 0x1 ∧ bitsOf w 15 8 = 0x0 then .ok (.qpos (BitVec.ofNat 5 (w / 2 ^ 21)) (BitVec.ofNat 5 (w / 2 ^ 16)) (BitVec.ofNat 4 (w / 2 ^ 4)))
  else if bitsOf w 3 0 = 0x1 ∧ bitsOf w 20 8 = 0x1 then .ok (.qposRd (BitVec.ofNat 5 (w / 2 ^ 21)) (BitVec.ofNat 4 (w / 2 ^ 4)))
  else if bitsOf w 3 0 = 0x2 ∧ bitsOf w 10 9 = 0x0 ∧ bitsOf w 15 15 = 0x0 then .ok (.qcopy (BitVec.ofNat 5 (w / 2 ^ 21)) (BitVec.ofNat 5 (w / 2 ^ 16)) (BitVec.ofNat 4 (w / 2 ^ 11)) (BitVec.ofNat 1 (w / 2 ^ 8)) (BitVec.ofNat 4 (w / 2 ^ 4)))
  else if bitsOf w 3 0 = 0x3 ∧ bitsOf w 10 9 = 0x0 then .ok (.qput (BitVec.ofNat 5 (w / 2 ^ 21)) (BitVec.ofNat 5 (w / 2 ^ 16)) (BitVec.ofNat 5 (w / 2 ^ 11)) (BitVec.ofNat 1 (w / 2 ^ 8)) (BitVec.ofNat 4 (w / 2 ^ 4)))
  else if bitsOf w 3 0 = 0x4 ∧ bitsOf w 7 7 = 0x0 ∧ bitsOf w 25 11 = 0x0 then .ok (.qfence (BitVec.ofNat 3 (w / 2 ^ 8)) (BitVec.ofNat 1 (w / 2 ^ 6)) (BitVec.ofNat 1 (w / 2 ^ 5)) (BitVec.ofNat 1 (w / 2 ^ 4)))
  else if bitsOf w 10 0 = 0x5 then .ok (.swarm (BitVec.ofNat 5 (w / 2 ^ 21)) (BitVec.ofNat 5 (w / 2 ^ 16)) (BitVec.ofNat 5 (w / 2 ^ 11)))
  else if bitsOf w 10 0 = 0x6 then .ok (.swwait (BitVec.ofNat 5 (w / 2 ^ 21)) (BitVec.ofNat 5 (w / 2 ^ 16)) (BitVec.ofNat 5 (w / 2 ^ 11)))
  else .error .reservedField

/-- The words of OP 0x26 (XPUT, XGET, XSIG; R400). -/
def decodeOp26 (w : Nat) : Except Reject Instr :=
  if bitsOf w 10 0 = 0x0 then .ok (.xput (BitVec.ofNat 5 (w / 2 ^ 21)) (BitVec.ofNat 5 (w / 2 ^ 16)) (BitVec.ofNat 5 (w / 2 ^ 11)))
  else if bitsOf w 10 0 = 0x1 then .ok (.xget (BitVec.ofNat 5 (w / 2 ^ 21)) (BitVec.ofNat 5 (w / 2 ^ 16)) (BitVec.ofNat 5 (w / 2 ^ 11)))
  else if bitsOf w 10 0 = 0x2 ∧ bitsOf w 25 21 = 0x0 then .ok (.xsig (BitVec.ofNat 5 (w / 2 ^ 16)) (BitVec.ofNat 5 (w / 2 ^ 11)))
  else .error .reservedField

/-- A scalar word decided by R290, tests 1 to 3 as far as the opcode, the function code and the fixed fields go;
the checks on field values are `Instr.legal`. -/
def decodeScalar (w : Nat) : Except Reject Instr :=
  if w = 0 then .error .allZeros
  else if w = 0xFFFFFFFF then .error .allOnes
  else match bitsOf w 31 26 with
  | 0x01 => decodeOp01 w
  | 0x02 => decodeOp02 w
  | 0x03 => decodeOp03 w
  | 0x04 => decodeOp04 w
  | 0x05 => decodeOp05 w
  | 0x06 => decodeOp06 w
  | 0x07 => decodeOp07 w
  | 0x08 => decodeOp08 w
  | 0x09 => decodeOp09 w
  | 0x0A => decodeOp0A w
  | 0x0B => decodeOp0B w
  | 0x0C => decodeOp0C w
  | 0x0D => decodeOp0D w
  | 0x0E => decodeOp0E w
  | 0x0F => decodeOp0F w
  | 0x10 => decodeOp10 w
  | 0x11 => decodeOp11 w
  | 0x12 => decodeOp12 w
  | 0x13 => decodeOp13 w
  | 0x14 => decodeOp14 w
  | 0x15 => decodeOp15 w
  | 0x16 => decodeOp16 w
  | 0x17 => decodeOp17 w
  | 0x18 => decodeOp18 w
  | 0x19 => decodeOp19 w
  | 0x1A => decodeOp1A w
  | 0x1B => decodeOp1B w
  | 0x1C => decodeOp1C w
  | 0x1D => decodeOp1D w
  | 0x1E => decodeOp1E w
  | 0x1F => decodeOp1F w
  | 0x20 => decodeOp20 w
  | 0x21 => decodeOp21 w
  | 0x22 => decodeOp22 w
  | 0x23 => decodeOp23 w
  | 0x24 => decodeOp24 w
  | 0x25 => decodeOp25 w
  | 0x26 => decodeOp26 w
  | 0x38 => .error .extension
  | 0x39 => .error .extension
  | 0x3A => .error .extension
  | 0x3B => .error .extension
  | _ => .error .unassigned

/-- The fields of a vector word (R288). -/
def vfieldsOf (w : Nat) : VFields :=
  { c := bitsOf w 63 63 = 1
    d := BitVec.ofNat 5 (w / 2 ^ 51)
    a := BitVec.ofNat 5 (w / 2 ^ 46)
    b := BitVec.ofNat 5 (w / 2 ^ 41)
    e := BitVec.ofNat 5 (w / 2 ^ 36)
    msk := BitVec.ofNat 3 (w / 2 ^ 33)
    zm := bitsOf w 32 32 = 1
    fmt := BitVec.ofNat 4 (w / 2 ^ 28)
    fn := BitVec.ofNat 8 (w / 2 ^ 20)
    qs := BitVec.ofNat 4 (w / 2 ^ 16)
    imm := BitVec.ofNat 16 w }

/-- The constructor of a VOP (R289), or the reason there is none (R291). -/
def vopInstr (vop : Nat) (f : VFields) : Except Reject Instr :=
  match vop with
  | 0x01 => .ok (.vadd f)
  | 0x02 => .ok (.vsub f)
  | 0x03 => .ok (.vmul f)
  | 0x04 => .ok (.vmulh f)
  | 0x05 => .ok (.vmulhu f)
  | 0x06 => .ok (.vmad f)
  | 0x07 => .ok (.vmin f)
  | 0x08 => .ok (.vmax f)
  | 0x09 => .ok (.vminu f)
  | 0x0A => .ok (.vmaxu f)
  | 0x0B => .ok (.vand f)
  | 0x0C => .ok (.vor f)
  | 0x0D => .ok (.vxor f)
  | 0x0E => .ok (.vandn f)
  | 0x0F => .ok (.vshl f)
  | 0x10 => .ok (.vshr f)
  | 0x11 => .ok (.vsar f)
  | 0x12 => .ok (.vadds f)
  | 0x13 => .ok (.vsubs f)
  | 0x14 => .ok (.vaddsu f)
  | 0x15 => .ok (.vsubsu f)
  | 0x16 => .ok (.vabs f)
  | 0x20 => .ok (.vfadd f)
  | 0x21 => .ok (.vfsub f)
  | 0x22 => .ok (.vfmul f)
  | 0x23 => .ok (.vfdiv f)
  | 0x24 => .ok (.vfsqrt f)
  | 0x25 => .ok (.vfma f)
  | 0x26 => .ok (.vfmin f)
  | 0x27 => .ok (.vfmax f)
  | 0x28 => .ok (.vfsgn f)
  | 0x29 => .ok (.vfrcp f)
  | 0x2A => .ok (.vfrsq f)
  | 0x2B => .ok (.vfexp2f f)
  | 0x2C => .ok (.vfrint f)
  | 0x2D => .ok (.vfscale f)
  | 0x2E => .ok (.vfgetx f)
  | 0x2F => .ok (.vfclass f)
  | 0x30 => .ok (.vfcmp f)
  | 0x31 => .ok (.vcvt f)
  | 0x32 => .ok (.vqmx f)
  | 0x38 => .ok (.vcmp f)
  | 0x39 => .ok (.mand f)
  | 0x3A => .ok (.mor f)
  | 0x3B => .ok (.mxor f)
  | 0x3C => .ok (.mandn f)
  | 0x3D => .ok (.mpop f)
  | 0x3E => .ok (.mfirst f)
  | 0x3F => .ok (.msbf f)
  | 0x40 => .ok (.vconf f)
  | 0x44 => .ok (.vmov f)
  | 0x45 => .ok (.vmerge f)
  | 0x46 => .ok (.vshuf f)
  | 0x47 => .ok (.vswz f)
  | 0x48 => .ok (.vslideup f)
  | 0x49 => .ok (.vslidedn f)
  | 0x4A => .ok (.vbcast f)
  | 0x4B => .ok (.vcomp f)
  | 0x4C => .ok (.vexpd f)
  | 0x4D => .ok (.vidx f)
  | 0x4E => .ok (.vext f)
  | 0x4F => .ok (.vins f)
  | 0x50 => .ok (.vred f)
  | 0x51 => .ok (.vfred f)
  | 0x52 => .ok (.vfredo f)
  | 0x58 => .ok (.vld f)
  | 0x59 => .ok (.vst f)
  | 0x5A => .ok (.vgath f)
  | 0x5B => .ok (.vscat f)
  | 0x5C => .ok (.vglnk f)
  | 0x5D => .ok (.vscnd f)
  | 0x5E => .ok (.vamo f)
  | 0x5F => .ok (.vwaitv f)
  | 0x60 => .ok (.vpref f)
  | 0x68 => .ok (.mzero f)
  | 0x69 => .ok (.mopa f)
  | 0x6A => .ok (.mopai f)
  | 0x6B => .ok (.mopax f)
  | 0x6C => .ok (.mdrain f)
  | 0x6D => .ok (.mfill f)
  | 0x7C => .ok (.vbar f)
  | 0x7D => .ok (.vnop f)
  | 0x7E => .ok (.vstop f)
  | 0x70 => .error .extension
  | 0x71 => .error .extension
  | 0x72 => .error .extension
  | 0x73 => .error .extension
  | _ => .error .unassigned

/-- A vector word (R288, R289). -/
def decodeVector (w : Nat) : Except Reject Instr := vopInstr (bitsOf w 62 56) (vfieldsOf w)

/-- The vector word of a VOP with given fields (R288). -/
def vword (vop : Nat) (f : VFields) : Nat :=
  (if f.c then 2 ^ 63 else 0) + vop * 2 ^ 56 + f.d.toNat * 2 ^ 51 + f.a.toNat * 2 ^ 46 + f.b.toNat * 2 ^ 41
    + f.e.toNat * 2 ^ 36 + f.msk.toNat * 2 ^ 33 + (if f.zm then 2 ^ 32 else 0) + f.fmt.toNat * 2 ^ 28
    + f.fn.toNat * 2 ^ 20 + f.qs.toNat * 2 ^ 16 + f.imm.toNat


/-- What an instruction is encoded as: a scalar word of 32 bits, a vector word of 64 bits, or nothing, for the
events of the table, which no word encodes. -/
inductive Enc where
  | scalar (w : Nat)
  | vector (w : Nat)
  | event
  deriving DecidableEq, Repr

/-- Fields at their lowest bits: `(value, lo)`. -/
def place (m : Nat) (fs : List (Nat × Nat)) : Nat := fs.foldl (fun x f => x + f.1 * 2 ^ f.2) m

/-- The scalar words ADD to CAS of the table (R281 to R287). -/
def encodeA : Instr → Option Nat
  | .add d a b => some (place 0x04000000 [(d.toNat, 21), (a.toNat, 16), (b.toNat, 11)])
  | .sub d a b => some (place 0x04000001 [(d.toNat, 21), (a.toNat, 16), (b.toNat, 11)])
  | .and d a b => some (place 0x04000002 [(d.toNat, 21), (a.toNat, 16), (b.toNat, 11)])
  | .or d a b => some (place 0x04000003 [(d.toNat, 21), (a.toNat, 16), (b.toNat, 11)])
  | .xor d a b => some (place 0x04000004 [(d.toNat, 21), (a.toNat, 16), (b.toNat, 11)])
  | .andn d a b => some (place 0x04000005 [(d.toNat, 21), (a.toNat, 16), (b.toNat, 11)])
  | .shl d a b => some (place 0x04000006 [(d.toNat, 21), (a.toNat, 16), (b.toNat, 11)])
  | .shr d a b => some (place 0x04000007 [(d.toNat, 21), (a.toNat, 16), (b.toNat, 11)])
  | .sar d a b => some (place 0x04000008 [(d.toNat, 21), (a.toNat, 16), (b.toNat, 11)])
  | .slt d a b => some (place 0x04000009 [(d.toNat, 21), (a.toNat, 16), (b.toNat, 11)])
  | .sltu d a b => some (place 0x0400000A [(d.toNat, 21), (a.toNat, 16), (b.toNat, 11)])
  | .min d a b => some (place 0x0400000B [(d.toNat, 21), (a.toNat, 16), (b.toNat, 11)])
  | .max d a b => some (place 0x0400000C [(d.toNat, 21), (a.toNat, 16), (b.toNat, 11)])
  | .minu d a b => some (place 0x0400000D [(d.toNat, 21), (a.toNat, 16), (b.toNat, 11)])
  | .maxu d a b => some (place 0x0400000E [(d.toNat, 21), (a.toNat, 16), (b.toNat, 11)])
  | .mul d a b => some (place 0x04000010 [(d.toNat, 21), (a.toNat, 16), (b.toNat, 11)])
  | .mulh d a b => some (place 0x04000011 [(d.toNat, 21), (a.toNat, 16), (b.toNat, 11)])
  | .mulhu d a b => some (place 0x04000012 [(d.toNat, 21), (a.toNat, 16), (b.toNat, 11)])
  | .div d a b => some (place 0x04000014 [(d.toNat, 21), (a.toNat, 16), (b.toNat, 11)])
  | .divu d a b => some (place 0x04000015 [(d.toNat, 21), (a.toNat, 16), (b.toNat, 11)])
  | .rem d a b => some (place 0x04000016 [(d.toNat, 21), (a.toNat, 16), (b.toNat, 11)])
  | .remu d a b => some (place 0x04000017 [(d.toNat, 21), (a.toNat, 16), (b.toNat, 11)])
  | .clz d a => some (place 0x04000018 [(d.toNat, 21), (a.toNat, 16)])
  | .ctz d a => some (place 0x04000019 [(d.toNat, 21), (a.toNat, 16)])
  | .popc d a => some (place 0x0400001A [(d.toNat, 21), (a.toNat, 16)])
  | .sext d a w => some (place 0x0400001C [(d.toNat, 21), (a.toNat, 16), (w.toNat, 6)])
  | .zext d a w => some (place 0x0400001D [(d.toNat, 21), (a.toNat, 16), (w.toNat, 6)])
  | .addi d a i => some (place 0x08000000 [(d.toNat, 21), (a.toNat, 16), (i.toNat, 0)])
  | .andi d a i => some (place 0x0C000000 [(d.toNat, 21), (a.toNat, 16), (i.toNat, 0)])
  | .ori d a i => some (place 0x10000000 [(d.toNat, 21), (a.toNat, 16), (i.toNat, 0)])
  | .xori d a i => some (place 0x14000000 [(d.toNat, 21), (a.toNat, 16), (i.toNat, 0)])
  | .shli d a i => some (place 0x18000000 [(d.toNat, 21), (a.toNat, 16), (i.toNat, 0)])
  | .shri d a i => some (place 0x1C000000 [(d.toNat, 21), (a.toNat, 16), (i.toNat, 0)])
  | .sari d a i => some (place 0x20000000 [(d.toNat, 21), (a.toNat, 16), (i.toNat, 0)])
  | .slti d a i => some (place 0x24000000 [(d.toNat, 21), (a.toNat, 16), (i.toNat, 0)])
  | .sltui d a i => some (place 0x28000000 [(d.toNat, 21), (a.toNat, 16), (i.toNat, 0)])
  | .ldi d h i => some (place 0x2C000000 [(d.toNat, 21), (h.toNat, 16), (i.toNat, 0)])
  | .ldiK d h i => some (place 0x2C040000 [(d.toNat, 21), (h.toNat, 16), (i.toNat, 0)])
  | .addpc d i => some (place 0x30000000 [(d.toNat, 21), (i.toNat, 0)])
  | .beq a b o => some (place 0x34000000 [(a.toNat, 21), (b.toNat, 16), (o.toNat, 0)])
  | .bne a b o => some (place 0x38000000 [(a.toNat, 21), (b.toNat, 16), (o.toNat, 0)])
  | .blt a b o => some (place 0x3C000000 [(a.toNat, 21), (b.toNat, 16), (o.toNat, 0)])
  | .bge a b o => some (place 0x40000000 [(a.toNat, 21), (b.toNat, 16), (o.toNat, 0)])
  | .bltu a b o => some (place 0x44000000 [(a.toNat, 21), (b.toNat, 16), (o.toNat, 0)])
  | .bgeu a b o => some (place 0x48000000 [(a.toNat, 21), (b.toNat, 16), (o.toNat, 0)])
  | .j d o => some (place 0x4C000000 [(d.toNat, 21), (o.toNat, 0)])
  | .jr d a i => some (place 0x50000000 [(d.toNat, 21), (a.toNat, 16), (i.toNat, 0)])
  | .ld d a w o s i => some (place 0x54000000 [(d.toNat, 21), (a.toNat, 16), (w.toNat, 14), (o.toNat, 13), (s.toNat, 10), (i.toNat, 0)])
  | .ldu d a w o s i => some (place 0x58000000 [(d.toNat, 21), (a.toNat, 16), (w.toNat, 14), (o.toNat, 13), (s.toNat, 10), (i.toNat, 0)])
  | .st d a w o s i => some (place 0x5C000000 [(d.toNat, 21), (a.toNat, 16), (w.toNat, 14), (o.toNat, 13), (s.toNat, 10), (i.toNat, 0)])
  | .amo d a b o s w p => some (place 0x60000020 [(d.toNat, 21), (a.toNat, 16), (b.toNat, 11), (o.toNat, 9), (s.toNat, 6), (w.toNat, 4), (p.toNat, 0)])
  | .cas d a b o s w => some (place 0x64000020 [(d.toNat, 21), (a.toNat, 16), (b.toNat, 11), (o.toNat, 9), (s.toNat, 6), (w.toNat, 4)])
  | _ => none

/-- The scalar words FADD to XSIG of the table (R281 to R287). -/
def encodeB : Instr → Option Nat
  | .fadd d a b r p => some (place 0x68000000 [(d.toNat, 21), (a.toNat, 16), (b.toNat, 11), (r.toNat, 4), (p.toNat, 3)])
  | .fsub d a b r p => some (place 0x68000080 [(d.toNat, 21), (a.toNat, 16), (b.toNat, 11), (r.toNat, 4), (p.toNat, 3)])
  | .fmul d a b r p => some (place 0x68000100 [(d.toNat, 21), (a.toNat, 16), (b.toNat, 11), (r.toNat, 4), (p.toNat, 3)])
  | .fdiv d a b r p => some (place 0x68000180 [(d.toNat, 21), (a.toNat, 16), (b.toNat, 11), (r.toNat, 4), (p.toNat, 3)])
  | .fsqrt d a r p => some (place 0x68000200 [(d.toNat, 21), (a.toNat, 16), (r.toNat, 4), (p.toNat, 3)])
  | .fmin d a b p => some (place 0x68000280 [(d.toNat, 21), (a.toNat, 16), (b.toNat, 11), (p.toNat, 3)])
  | .fmax d a b p => some (place 0x68000300 [(d.toNat, 21), (a.toNat, 16), (b.toNat, 11), (p.toNat, 3)])
  | .fcmp d a b p c => some (place 0x68000380 [(d.toNat, 21), (a.toNat, 16), (b.toNat, 11), (p.toNat, 3), (c.toNat, 0)])
  | .fclass d a p => some (place 0x68000400 [(d.toNat, 21), (a.toNat, 16), (p.toNat, 3)])
  | .fma d a b c r p => some (place 0x6C000000 [(d.toNat, 21), (a.toNat, 16), (b.toNat, 11), (c.toNat, 6), (r.toNat, 3), (p.toNat, 2)])
  | .fcvt d a u s t r => some (place 0x70000000 [(d.toNat, 21), (a.toNat, 16), (u.toNat, 11), (s.toNat, 7), (t.toNat, 3), (r.toNat, 0)])
  | .fence s k => some (place 0x74000000 [(s.toNat, 8), (k.toNat, 4)])
  | .wait d m => some (place 0x74000001 [(d.toNat, 21), (m.toNat, 4)])
  | .barj d i => some (place 0x74000002 [(d.toNat, 21), (i.toNat, 4)])
  | .bara d i => some (place 0x74000003 [(d.toNat, 21), (i.toNat, 4)])
  | .barw a i => some (place 0x74000004 [(a.toNat, 16), (i.toNat, 4)])
  | .barl i => some (place 0x74000005 [(i.toNat, 4)])
  | .msg a b t r => some (place 0x78000000 [(a.toNat, 16), (b.toNat, 11), (t.toNat, 5), (r.toNat, 4)])
  | .mret a => some (place 0x78000001 [(a.toNat, 16)])
  | .token a b => some (place 0x78000002 [(a.toNat, 16), (b.toNat, 11)])
  | .texit => some (place 0x78000003 [])
  | .tfail a => some (place 0x78000004 [(a.toNat, 16)])
  | .trap a => some (place 0x7C000000 [(a.toNat, 16)])
  | .tret => some (place 0x7C000001 [])
  | .brk => some (place 0x7C000002 [])
  | .cflush a s => some (place 0x7C000003 [(a.toNat, 16), (s.toNat, 4)])
  | .tlbi a b m => some (place 0x7C000004 [(a.toNat, 16), (b.toNat, 11), (m.toNat, 4)])
  | .srd d n => some (place 0x80000000 [(d.toNat, 21), (n.toNat, 0)])
  | .swr a n => some (place 0x84000000 [(a.toNat, 16), (n.toNat, 0)])
  | .srs d a n => some (place 0x88000000 [(d.toNat, 21), (a.toNat, 16), (n.toNat, 0)])
  | .src d a n => some (place 0x8C000000 [(d.toNat, 21), (a.toNat, 16), (n.toNat, 0)])
  | .vlease d a => some (place 0x90000000 [(d.toNat, 21), (a.toNat, 16)])
  | .vsetl d a s b f => some (place 0x90000001 [(d.toNat, 21), (a.toNat, 16), (s.toNat, 9), (b.toNat, 8), (f.toNat, 4)])
  | .vfetch a => some (place 0x90000002 [(a.toNat, 16)])
  | .vsync d => some (place 0x90000003 [(d.toNat, 21)])
  | .vcommit => some (place 0x90000004 [])
  | .vrel => some (place 0x90000005 [])
  | .mbegin k => some (place 0x90000006 [(k.toNat, 4)])
  | .mend => some (place 0x90000007 [])
  | .qset a q => some (place 0x94000000 [(a.toNat, 16), (q.toNat, 4)])
  | .qsetOff q => some (place 0x94000100 [(q.toNat, 4)])
  | .qpos d a q => some (place 0x94000001 [(d.toNat, 21), (a.toNat, 16), (q.toNat, 4)])
  | .qposRd d q => some (place 0x94000101 [(d.toNat, 21), (q.toNat, 4)])
  | .qcopy d a t k s => some (place 0x94000002 [(d.toNat, 21), (a.toNat, 16), (t.toNat, 11), (k.toNat, 8), (s.toNat, 4)])
  | .qput d a b k t => some (place 0x94000003 [(d.toNat, 21), (a.toNat, 16), (b.toNat, 11), (k.toNat, 8), (t.toNat, 4)])
  | .qfence s x y z => some (place 0x94000004 [(s.toNat, 8), (x.toNat, 6), (y.toNat, 5), (z.toNat, 4)])
  | .swarm d a b => some (place 0x94000005 [(d.toNat, 21), (a.toNat, 16), (b.toNat, 11)])
  | .swwait d a b => some (place 0x94000006 [(d.toNat, 21), (a.toNat, 16), (b.toNat, 11)])
  | .xput d a b => some (place 0x98000000 [(d.toNat, 21), (a.toNat, 16), (b.toNat, 11)])
  | .xget d a b => some (place 0x98000001 [(d.toNat, 21), (a.toNat, 16), (b.toNat, 11)])
  | .xsig a b => some (place 0x98000002 [(a.toNat, 16), (b.toNat, 11)])
  | _ => none

/-- The VOP and the fields of a vector instruction (R289). -/
def vectorOp : Instr → Option (Nat × VFields)
  | .vadd f => some (0x01, f)
  | .vsub f => some (0x02, f)
  | .vmul f => some (0x03, f)
  | .vmulh f => some (0x04, f)
  | .vmulhu f => some (0x05, f)
  | .vmad f => some (0x06, f)
  | .vmin f => some (0x07, f)
  | .vmax f => some (0x08, f)
  | .vminu f => some (0x09, f)
  | .vmaxu f => some (0x0A, f)
  | .vand f => some (0x0B, f)
  | .vor f => some (0x0C, f)
  | .vxor f => some (0x0D, f)
  | .vandn f => some (0x0E, f)
  | .vshl f => some (0x0F, f)
  | .vshr f => some (0x10, f)
  | .vsar f => some (0x11, f)
  | .vadds f => some (0x12, f)
  | .vsubs f => some (0x13, f)
  | .vaddsu f => some (0x14, f)
  | .vsubsu f => some (0x15, f)
  | .vabs f => some (0x16, f)
  | .vfadd f => some (0x20, f)
  | .vfsub f => some (0x21, f)
  | .vfmul f => some (0x22, f)
  | .vfdiv f => some (0x23, f)
  | .vfsqrt f => some (0x24, f)
  | .vfma f => some (0x25, f)
  | .vfmin f => some (0x26, f)
  | .vfmax f => some (0x27, f)
  | .vfsgn f => some (0x28, f)
  | .vfrcp f => some (0x29, f)
  | .vfrsq f => some (0x2A, f)
  | .vfexp2f f => some (0x2B, f)
  | .vfrint f => some (0x2C, f)
  | .vfscale f => some (0x2D, f)
  | .vfgetx f => some (0x2E, f)
  | .vfclass f => some (0x2F, f)
  | .vfcmp f => some (0x30, f)
  | .vcvt f => some (0x31, f)
  | .vqmx f => some (0x32, f)
  | .vcmp f => some (0x38, f)
  | .mand f => some (0x39, f)
  | .mor f => some (0x3A, f)
  | .mxor f => some (0x3B, f)
  | .mandn f => some (0x3C, f)
  | .mpop f => some (0x3D, f)
  | .mfirst f => some (0x3E, f)
  | .msbf f => some (0x3F, f)
  | .vconf f => some (0x40, f)
  | .vmov f => some (0x44, f)
  | .vmerge f => some (0x45, f)
  | .vshuf f => some (0x46, f)
  | .vswz f => some (0x47, f)
  | .vslideup f => some (0x48, f)
  | .vslidedn f => some (0x49, f)
  | .vbcast f => some (0x4A, f)
  | .vcomp f => some (0x4B, f)
  | .vexpd f => some (0x4C, f)
  | .vidx f => some (0x4D, f)
  | .vext f => some (0x4E, f)
  | .vins f => some (0x4F, f)
  | .vred f => some (0x50, f)
  | .vfred f => some (0x51, f)
  | .vfredo f => some (0x52, f)
  | .vld f => some (0x58, f)
  | .vst f => some (0x59, f)
  | .vgath f => some (0x5A, f)
  | .vscat f => some (0x5B, f)
  | .vglnk f => some (0x5C, f)
  | .vscnd f => some (0x5D, f)
  | .vamo f => some (0x5E, f)
  | .vwaitv f => some (0x5F, f)
  | .vpref f => some (0x60, f)
  | .mzero f => some (0x68, f)
  | .mopa f => some (0x69, f)
  | .mopai f => some (0x6A, f)
  | .mopax f => some (0x6B, f)
  | .mdrain f => some (0x6C, f)
  | .mfill f => some (0x6D, f)
  | .vbar f => some (0x7C, f)
  | .vnop f => some (0x7D, f)
  | .vstop f => some (0x7E, f)
  | _ => none

/-- The encoder, from R281 to R289 and the field tables of the instruction chapters. -/
def encode (i : Instr) : Enc :=
  match encodeA i with
  | some w => .scalar w
  | none => match encodeB i with
    | some w => .scalar w
    | none => match vectorOp i with
      | some (vop, f) => .vector (vword vop f)
      | none => .event


/-! ### The format codes (R240) -/

/-- The element formats (R240). -/
inductive Fmt where
  | i8 | i16 | i32 | i64 | i4 | e2m1 | e4m3 | e5m2 | f16 | bf16 | f32 | f64 | e8m0
  deriving DecidableEq, Repr

/-- The format of a code; reserved codes have none (R240). -/
def Fmt.ofCode (c : Nat) : Option Fmt :=
  match c with
  | 0 => some .i8 | 1 => some .i16 | 2 => some .i32 | 3 => some .i64 | 4 => some .i4 | 5 => some .e2m1
  | 6 => some .e4m3 | 7 => some .e5m2 | 8 => some .f16 | 9 => some .bf16 | 10 => some .f32 | 11 => some .f64
  | 12 => some .e8m0 | _ => none

/-- Width in bits (R240). -/
def Fmt.width : Fmt → Nat
  | .i4 | .e2m1 => 4
  | .i8 | .e4m3 | .e5m2 | .e8m0 => 8
  | .i16 | .f16 | .bf16 => 16
  | .i32 | .f32 => 32
  | .i64 | .f64 => 64

/-- The integer formats (R240). -/
def Fmt.isInt : Fmt → Bool
  | .i8 | .i16 | .i32 | .i64 | .i4 => true
  | _ => false

/-- The floating-point formats of vector arithmetic (R326). -/
def Fmt.isFloat : Fmt → Bool
  | .e2m1 | .e4m3 | .e5m2 | .f16 | .bf16 | .f32 | .f64 => true
  | _ => false

/-- The feature a format needs (R240), as a set of bits of R71: bit 1 mxs, bit 2 i4, bit 3 f64. -/
def Fmt.features : Fmt → Nat
  | .i4 | .e2m1 => 4
  | .f64 => 8
  | .e8m0 => 2
  | _ => 0

/-- A rounding field (R245): 0 to 3 or 7. -/
def rmLegal (r : Nat) : Bool := r ≤ 3 || r == 7

namespace VFields

/-- FN as a number. -/
def fnN (f : VFields) : Nat := f.fn.toNat
/-- IMM16 as a number. -/
def immN (f : VFields) : Nat := f.imm.toNat
/-- BK, the kind of the B operand (R328). -/
def bk (f : VFields) : Nat := bitsOf f.fnN 4 3
/-- RM, the rounding field (R328). -/
def rm (f : VFields) : Nat := bitsOf f.fnN 2 0
/-- ORD (R288). -/
def ord (f : VFields) : Nat := bitsOf f.immN 15 14
/-- SCP (R288). -/
def scp (f : VFields) : Nat := bitsOf f.immN 13 11
/-- IXF of the memory forms (R352). -/
def ixf (f : VFields) : Nat := bitsOf f.fnN 1 0
/-- The format FMT names. -/
def fmt? (f : VFields) : Option Fmt := Fmt.ofCode f.fmt.toNat
/-- The format that FN[7:4] names (R337, R338, R374). -/
def fmt2? (f : VFields) : Option Fmt := Fmt.ofCode (bitsOf f.fnN 7 4)

/-- FMT names an integer format (R326). -/
def intFmt (f : VFields) : Bool := match f.fmt? with | some x => x.isInt | none => false
/-- FMT names a floating-point format of vector arithmetic (R326). -/
def fpFmt (f : VFields) : Bool := match f.fmt? with | some x => x.isFloat && x != .f64 | none => false
/-- FMT names any code but F64 and the reserved ones (R326, R353). -/
def anyFmt (f : VFields) : Bool := match f.fmt? with | some x => x != .f64 | none => false

/-- D names a mask register that can be written, m1-m7 (R277). -/
def dMask (f : VFields) : Bool := 1 ≤ f.d.toNat && f.d.toNat ≤ 7
/-- QS names a result slot (R277). -/
def yOk (f : VFields) : Bool := f.qs.toNat ≤ 7
/-- QS and IMM16 unused. -/
def noQI (f : VFields) : Bool := f.qs == 0 && f.imm == 0
/-- The B operand under BK, within the kinds allowed (R328): what BK does not use is 0. -/
def bkOk (f : VFields) (allowed : List Nat) : Bool :=
  allowed.contains f.bk && (f.bk != 2 || f.b == 0) && (f.bk == 2 || f.imm == 0)
/-- FN[7:5] is 0. -/
def fnHigh0 (f : VFields) : Bool := bitsOf f.fnN 7 5 == 0
/-- ORD within the allowed list (R202), SCP 0 when plain (R203). -/
def ordOk (f : VFields) (allowed : List Nat) : Bool := allowed.contains f.ord && (f.ord != 0 || f.scp == 0)
/-- The memory forms' IMM16[10:0] is 0 (R352). -/
def imm0 (f : VFields) : Bool := bitsOf f.immN 10 0 == 0
/-- No mask (R288). -/
def noMask (f : VFields) : Bool := f.msk == 0 && !f.zm

/-- The integer instructions of R330 with BK 0, 1 or 2 and no E. -/
def legalInt (f : VFields) : Bool :=
  f.intFmt && f.bkOk [0, 1, 2] && f.rm == 0 && f.fnHigh0 && f.e == 0 && f.qs == 0
/-- A floating-point instruction of two operands (R331). -/
def legalFp (f : VFields) (round : Bool) (bks : List Nat) : Bool :=
  f.fpFmt && f.bkOk bks && (if round then rmLegal f.rm else f.rm == 0) && f.fnHigh0 && f.qs == 0
/-- A unary floating-point instruction: B 0, BK 0 (R331, R333, R335). -/
def legalFp1 (f : VFields) (round : Bool) : Bool :=
  f.fpFmt && f.b == 0 && (if round then rmLegal f.rm && bitsOf f.fnN 7 3 == 0 else f.fn == 0) && f.e == 0 && f.noQI
/-- The mask logic of R340. -/
def legalMaskLogic (f : VFields) : Bool :=
  f.dMask && f.a.toNat ≤ 7 && f.b.toNat ≤ 7 && f.e == 0 && f.fmt == 0 && f.fn == 0 && f.noQI
/-- A move with only D and A (R343, R344, R347). -/
def legalMove (f : VFields) : Bool := f.anyFmt && f.b == 0 && f.e == 0
/-- The memory forms (R352, R353): E 0 and no bits of IMM16[10:0]. -/
def legalIndexed (f : VFields) (ords : List Nat) : Bool :=
  bitsOf f.fnN 7 2 == 0 && f.e == 0 && f.imm0 && f.ordOk ords
/-- Width 8 to 64 (R353). -/
def linkFmt (f : VFields) : Bool := match f.fmt? with | some x => x != .f64 && 8 ≤ x.width | none => false
/-- The source formats of MOPA and MOPAX: equal widths (R374). -/
def panelFmts (f : VFields) (set : List Fmt) : Bool :=
  match f.fmt?, f.fmt2? with
  | some x, some y => set.contains x && set.contains y && x.width == y.width
  | _, _ => false
/-- MK, ZM and QS of a matrix instruction are 0 (R374). -/
def matrix (f : VFields) : Bool := f.noMask && f.qs == 0
/-- D names a tile (R277). -/
def dTile (f : VFields) : Bool := f.d.toNat ≤ 3
/-- Every field but C is 0 (R289). -/
def onlyC (f : VFields) : Bool :=
  f.d == 0 && f.a == 0 && f.b == 0 && f.e == 0 && f.noMask && f.fmt == 0 && f.fn == 0 && f.noQI

end VFields

/-- The checks of R290 test 3 (for a vector word, R291) that depend on the word alone: order and scope, formats,
rounding fields, register numbers, fields that must be 0. An event has no word. -/
def Instr.legal : Instr → Bool
  | .sext _ _ w | .zext _ _ w => w != 3
  | .ld _ _ _ o s _ | .ldu _ _ _ o s _ | .st _ _ _ o s _ => o != 0 || s == 0
  | .amo _ _ _ o s _ p => p.toNat ≤ 8 && (o != 0 || s == 0)
  | .cas _ _ _ o s _ => o != 0 || s == 0
  | .fadd _ _ _ r _ | .fsub _ _ _ r _ | .fmul _ _ _ r _ | .fdiv _ _ _ r _ | .fsqrt _ _ r _ => rmLegal r.toNat
  | .fma _ _ _ _ r _ => rmLegal r.toNat
  | .fcvt _ _ u s t r =>
    match Fmt.ofCode s.toNat, Fmt.ofCode t.toNat with
    | some x, some y =>
      [Fmt.i32, .i64, .f32, .f64].contains x && [Fmt.i32, .i64, .f32, .f64].contains y
        && (x.isFloat || y.isFloat) && (u == 0 || x.isInt || y.isInt) && rmLegal r.toNat
    | _, _ => false
  | .fence _ k => k != 0
  | .wait _ m => m != 0
  | .msg _ b _ _ => b.toNat ≤ 25
  | .cflush _ s => 2 ≤ s.toNat && s.toNat ≤ 5
  | .tlbi a b m => match m.toNat with | 0 => true | 1 => a == 0 | 2 => a == 0 && b == 0 | _ => false
  | .vsetl _ _ _ _ f => match Fmt.ofCode f.toNat with | some x => x != .f64 | none => false
  | .qfence _ x y z => x != 0 || y != 0 || z != 0
  | .vadd f | .vsub f | .vmul f | .vmulh f | .vmulhu f | .vmin f | .vmax f | .vminu f | .vmaxu f | .vand f | .vor f
  | .vxor f | .vandn f | .vshl f | .vshr f | .vsar f | .vadds f | .vsubs f | .vaddsu f | .vsubsu f => f.legalInt
  | .vmad f => f.intFmt && f.bkOk [0, 1, 2] && f.rm == 0 && f.fnHigh0 && f.qs == 0
  | .vabs f => f.intFmt && f.b == 0 && f.e == 0 && f.fn == 0 && f.noQI
  | .vfadd f | .vfsub f | .vfmul f | .vfdiv f => f.legalFp true [0, 1] && f.e == 0
  | .vfma f => f.legalFp true [0, 1]
  | .vfmin f | .vfmax f => f.legalFp false [0, 1] && f.e == 0
  | .vfsqrt f | .vfrcp f | .vfrint f => f.legalFp1 true
  | .vfrsq f | .vfgetx f => f.legalFp1 false
  | .vfexp2f f => f.fmt == 10 && f.legalFp1 false
  | .vfsgn f => f.fpFmt && f.bkOk [0, 1] && bitsOf f.fnN 2 0 ≤ 2 && f.fnHigh0 && f.e == 0 && f.noQI
  | .vfscale f => f.legalFp true [0, 1, 2] && f.e == 0
  | .vfclass f => f.fpFmt && f.dMask && f.b == 0 && f.e == 0 && f.fn == 0 && f.qs == 0 && bitsOf f.immN 15 10 == 0
  | .vfcmp f => f.fpFmt && f.dMask && f.bkOk [0, 1] && f.rm ≤ 3 && f.fnHigh0 && f.e == 0 && f.qs == 0
  | .vcvt f =>
    match f.fmt?, f.fmt2? with
    | some y, some x => y != .f64 && x != .f64 && (bitsOf f.fnN 3 3 == 0 || x.isInt || y.isInt) && rmLegal f.rm
        && f.b == 0 && f.e == 0 && f.noQI
    | _, _ => false
  | .vqmx f =>
    match f.fmt?, f.fmt2? with
    | some y, some x => [Fmt.e4m3, .e5m2, .e2m1].contains y && [Fmt.f32, .f16, .bf16].contains x
        && bitsOf f.fnN 3 3 == 0 && rmLegal f.rm && f.b == 0 && f.e != f.d && f.noQI
    | _, _ => false
  | .vcmp f => f.intFmt && f.dMask && f.bkOk [0, 1, 2] && f.fnHigh0 && f.e == 0 && f.qs == 0
  | .mand f | .mor f | .mxor f | .mandn f => f.legalMaskLogic
  | .mpop f | .mfirst f =>
    f.d == 0 && f.a.toNat ≤ 7 && f.b == 0 && f.e == 0 && !f.zm && f.fmt == 0 && f.fn == 0 && f.yOk && f.imm == 0
  | .msbf f => f.dMask && f.a.toNat ≤ 7 && f.b == 0 && f.e == 0 && f.fmt == 0 && f.fn == 0 && f.noQI
  | .vconf f => f.anyFmt && bitsOf f.fnN 1 0 ≤ 2 && bitsOf f.fnN 7 2 == 0 && f.b == 0 && f.e == 0 && f.noQI
      && (bitsOf f.fnN 1 0 == 2 || f.dMask)
  | .vmov f => f.legalMove && f.fn == 0 && f.noQI
  | .vmerge f => f.anyFmt && f.bkOk [0, 1, 2] && f.rm == 0 && f.fnHigh0 && !f.zm && f.e == 0 && f.qs == 0
  | .vbcast f => f.anyFmt && f.bkOk (if f.intFmt then [1, 2] else [1]) && f.rm == 0 && f.fnHigh0 && f.a == 0
      && f.e == 0 && f.qs == 0
  | .vidx f => f.intFmt && f.a == 0 && f.b == 0 && f.e == 0 && f.fn == 0 && f.qs == 0
  | .vins f => f.anyFmt && f.bkOk [1, 2] && f.rm == 0 && f.fnHigh0 && !f.zm && f.e == 0 && f.qs == 0
  | .vswz f =>
    match f.fmt? with
    | some x => f.legalMove && bitsOf f.fnN 7 1 == 0 && f.qs == 0 && f.immN < 128 / x.width && f.immN < 32
    | none => false
  | .vshuf f => f.anyFmt && f.rm == 0 && f.bk ≤ 2 && f.fnHigh0 && f.e == 0 && f.noQI
  | .vslideup f | .vslidedn f => f.anyFmt && f.bkOk [1, 2] && f.rm == 0 && f.fnHigh0 && f.e == 0 && f.qs == 0
  | .vcomp f => f.legalMove && !f.zm && bitsOf f.fnN 7 1 == 0 && f.imm == 0
      && (if bitsOf f.fnN 0 0 == 1 then f.yOk else f.qs == 0)
  | .vexpd f => f.legalMove && f.fn == 0 && f.noQI
  | .vext f => f.anyFmt && f.bkOk [1, 2] && bitsOf f.fnN 1 0 == 0 && f.fnHigh0 && f.d == 0 && f.e == 0 && f.noMask
      && f.yOk
  | .vred f => f.intFmt && f.fnHigh0 && (bitsOf f.fnN 3 3 == 0 || f.rm ≤ 3) && (bitsOf f.fnN 4 4 == 1 || f.b == 0)
      && f.d == 0 && f.e == 0 && !f.zm && f.yOk && f.imm == 0
  | .vfred f => f.fpFmt && f.bk ≤ 2 && rmLegal f.rm && bitsOf f.fnN 7 6 == 0 && (bitsOf f.fnN 5 5 == 1 || f.b == 0)
      && f.d == 0 && f.e == 0 && !f.zm && f.yOk && f.imm == 0
  | .vfredo f => f.fpFmt && f.bk == 0 && rmLegal f.rm && bitsOf f.fnN 7 6 == 0 && (bitsOf f.fnN 5 5 == 1 || f.b == 0)
      && f.d == 0 && f.e == 0 && !f.zm && f.yOk && f.imm == 0
  | .vld f => f.anyFmt && f.a == 0 && f.b == 0 && f.e == 0 && f.fn == 0 && f.imm0 && f.ordOk [0, 1]
  | .vst f => f.anyFmt && f.d == 0 && f.b == 0 && f.e == 0 && f.fn == 0 && f.imm0 && f.ordOk [0, 2] && !f.zm
  | .vgath f => f.anyFmt && f.a == 0 && f.legalIndexed [0, 1]
  | .vscat f => f.anyFmt && f.d == 0 && f.legalIndexed [0, 2] && !f.zm
  | .vglnk f => f.linkFmt && f.a == 0 && f.legalIndexed [0, 1]
  | .vscnd f => f.linkFmt && f.dMask && f.legalIndexed [0, 2] && !f.zm
  | .vamo f => bitsOf f.fnN 2 2 == 0 && f.e == 0 && f.imm0 && f.ordOk [0, 1, 2, 3]
      && (if bitsOf f.fnN 6 3 == 9 then f.fmt == 10 else bitsOf f.fnN 6 3 ≤ 8 && (f.fmt == 2 || f.fmt == 3))
      && (bitsOf f.fnN 7 7 == 1 || (f.d == 0 && !f.zm))
  | .vwaitv f => (f.fmt == 2 || f.fmt == 3) && f.dMask && f.e == 0 && f.ordOk [0, 1] && !f.zm
      && bitsOf f.fnN 7 7 == 0 && bitsOf f.fnN 6 3 ≤ 5 && (bitsOf f.fnN 2 2 == 1 || (f.b == 0 && f.ixf == 0))
  | .vpref f => f.anyFmt && f.d == 0 && f.a == 0 && f.b == 0 && f.e == 0 && f.fn == 0 && f.imm == 0 && !f.zm
  | .mzero f => f.matrix && f.dTile && f.a == 0 && f.b == 0 && f.e == 0 && (f.fmt == 2 || f.fmt == 10) && f.fn == 0
      && f.imm == 0
  | .mopa f => f.matrix && f.dTile && f.e == 0 && f.panelFmts [.e4m3, .e5m2, .e2m1, .f16, .bf16]
      && bitsOf f.fnN 3 0 == 0 && f.imm == 0
  | .mopai f => f.matrix && f.dTile && f.e == 0 && (f.fmt == 0 || f.fmt == 4)
      && (bitsOf f.fnN 7 4 == 0 || bitsOf f.fnN 7 4 == 4) && bitsOf f.fnN 1 0 == 0 && f.imm == 0
  | .mopax f => f.matrix && f.dTile && f.panelFmts [.e4m3, .e5m2, .e2m1] && bitsOf f.fnN 3 0 == 0 && f.imm == 0
  | .mdrain f => f.matrix && f.a.toNat ≤ 3 && f.b == 0 && f.e == 0 && rmLegal f.rm && bitsOf f.fnN 7 3 == 0
      && f.immN ≤ 15
      && (match f.fmt? with
          | some x => [Fmt.f32, .f16, .bf16, .e4m3, .e5m2, .e2m1, .i32, .i64].contains x
          | none => false)
  | .mfill f => f.matrix && f.dTile && f.b == 0 && f.e == 0 && (f.fmt == 2 || f.fmt == 10) && f.fn == 0 && f.immN ≤ 15
  | .vbar f | .vnop f | .vstop f => f.onlyC
  | _ => true

/-- The features an instruction needs (R71, R240), as a set of bits of R71. -/
def Instr.features : Instr → Nat
  | .fadd _ _ _ _ p | .fsub _ _ _ _ p | .fmul _ _ _ _ p | .fdiv _ _ _ _ p | .fsqrt _ _ _ p | .fmin _ _ _ p
  | .fmax _ _ _ p | .fcmp _ _ _ p _ | .fclass _ _ p | .fma _ _ _ _ _ p => if p = 1 then 8 else 0
  | .fcvt _ _ _ s t _ => if s = 11 ∨ t = 11 then 8 else 0
  | .vsetl _ _ _ _ f => match Fmt.ofCode f.toNat with | some x => x.features | none => 0
  | .xput _ _ _ | .xget _ _ _ | .xsig _ _ => 1
  | .vcvt f | .mopa f => (match f.fmt? with | some x => x.features | none => 0)
      ||| (match f.fmt2? with | some x => x.features | none => 0)
  | .vqmx f | .mopax f => 2 ||| (match f.fmt? with | some x => x.features | none => 0)
      ||| (match f.fmt2? with | some x => x.features | none => 0)
  | .mopai f => if f.fmt = 4 ∨ bitsOf f.fnN 7 4 = 4 then 4 else 0
  | .mand _ | .mor _ | .mxor _ | .mandn _ | .mpop _ | .mfirst _ | .msbf _ | .vbar _ | .vnop _ | .vstop _ => 0
  | i => match vectorOp i with
    | some (_, f) => (match f.fmt? with | some x => x.features | none => 0)
    | none => 0

/-- What `decodeTableWord` reads: a scalar row of 32 bits, a vector row of 64 bits, numbered as the opcode table
numbers them; words are little-endian and one word long (R281, R288), so the word is the row's bits. -/
def decodeTableWord (nbits w : Nat) : Option Instr :=
  if nbits ≤ 32 then (decodeScalar (w % 2 ^ 32)).toOption
  else (decodeVector (w % 2 ^ 64)).toOption

end Sys2Proof
end

