-- ==== Sys2Proof/WellFormed.lean ====
section
/-! DEFINITION. Well-formedness of an instruction: the field checks of R290 test 3 and R291, and, for the
events of the part's agents, places that exist (R1, R2). -/

namespace Sys2Proof

/-- A hart slot of the package (R2, R144); cluster 16 stands for the management core, core 0. -/
def HartId.ok (h : HartId) : Bool :=
  h.die < Config.dies && h.slot < Config.slots
    && (h.clu < Config.clusters && h.core < Config.cores || h.clu == Config.mgmtCluster && h.core == 0)

/-- A scalar core of the package (R2). -/
def CoreId.ok (k : CoreId) : Bool := k.messageSlot.ok

/-- The events whose places must exist: a hart slot, a core, a die or a cluster of the package. -/
def Instr.placed : Instr → Bool
  | .blockFinish h | .vectorTrapTake h | .asyncEventTake h | .breakpoint h | .residueMismatch h _ | .replyArrive h
  | .copyEntry h _ | .fabricEntry h _ | .vwaitvWake h | .vwaitvTimeout h | .drainTimeout h | .spillDone h
  | .cancelLand h | .cancelTimeout h | .hartRetire h | .preemptComplete h | .moveTimeout h => h.ok
  | .hartMove h d => h.ok && d < Config.dies
  | .messageArrive k | .handlerStart k | .handlerOverrun k | .ping k | .rd k | .wr k | .aadd k | .swap k
  | .casBuiltin k | .copy k | .swbump k | .evset k => k.ok
  | .arbiterRound d c | .revocationDeadline d c | .clamp d c => d < Config.dies && c < Config.clusters
  | .preempt d n => d < Config.dies && n < 2048
  | .podretire d p | .eolWrite d p _ => d < Config.dies && p < Config.podsPerDie
  | .traceStart d x | .traceBatchWrite d x => d < Config.dies && x < 4
  | .stewardServiceDone d | .stewardRetry d | .preemptRestart d | .tokenStep d | .nodeDispatch d | .reservation d
  | .foldedHartStart d | .stwtailWrite d _ | .stwringWrite d _ | .hmarginWrite d _ | .thermalSample d _
  | .powerMeasure d _ | .auditInterval d | .auditPendingWrite d => d < Config.dies
  | .prepare _ d | .ack _ d | .nack _ d | .commit _ d | .abort _ d => d < Config.dies
  | _ => true

/-- A well-formed instruction. -/
def Instr.wf (i : Instr) : Bool := i.legal && i.placed

end Sys2Proof
end

