-- ==== Sys2Proof/Machine/State.lean ====
section
/-! DEFINITION. The state of a ZM-4512 package, as plain data: the harts, their leases and vector contexts, the
cores, clusters and dies, the memory, the graph engines and the host port; why a run can stop; the state after
reset. Each field's docstring names the rule that gives it and its reset value; the values the manual leaves open
at reset are those of log entry 1. -/

namespace Sys2Proof.Machine

/-- Why the machine stops with a fault. -/
inductive Fault where
  /-- A vector instruction is executed while the hart in focus has no strip open. `step` never does this: it runs
  vector words only from the block of an open strip. Raised by `guardVector` (safe). -/
  | noStrip
  deriving DecidableEq, Repr

/-- Why the machine refuses an instruction. -/
inductive Refusal where
  /-- An instruction that has no meaning yet; raised by the arms of `exec` alone (safe). -/
  | notModelled (mnemonic : String)
  deriving DecidableEq, Repr

/-- The memory of the device: the bytes that are not zero, by rising address. An unlisted byte reads 0 (the scrub of
R27; log 4). Addresses are package offsets (R165); the core scratchpads follow at `2^48` (log 4). Host memory is the
host's (R48). -/
abbrev Mem := List Host.Cell

/-- A finite map with a default: rising keys, no entry equal to the default. -/
abbrev Table (α : Type) := List (Nat × α)

/-! ### The hart -/

/-- The levels of R222. -/
inductive Level where
  | user | supervisor | management
  deriving DecidableEq, Repr

/-- How far a hart slot is occupied (R144). -/
inductive Occupancy where
  /-- No hart. -/
  | empty
  /-- A hart, or a handler in slot 7. -/
  | running
  /-- Ended by TEXIT or TFAIL, waiting for its queues (R405); the flag says that TEXIT ended it. -/
  | retiring (exited : Bool)
  /-- A cancel request has landed; waiting for its queues (R108). -/
  | cancelled
  /-- Stopped by R227 (a management core's third trap) or by start-up. -/
  | stopped
  /-- Pre-empted, waiting for step 3 of R238. -/
  | preempted
  deriving DecidableEq, Repr

/-- Why an instruction waits (R145). `attach`: an attach under way waits for a page (R85); `lock`: a store or atomic that has issued waits at a locked home (R319, R361); `home`:
a commit waits there. -/
inductive Stall where
  | asleep | lease | queueFull | earlierBlocks | message | loadData | hostData | attach | commit | lock | home
  deriving DecidableEq, Repr

/-- A stream register (R176): the descriptor, IDX and the active bit. All fields 0 at reset (R148). -/
structure Stream where
  base : Word
  s1 : BitVec 32
  s2 : BitVec 32
  n1 : BitVec 32
  len : BitVec 32
  esz : BitVec 8
  space : BitVec 8
  idx : Word
  active : Bool
  deriving DecidableEq, Repr

/-- An inactive stream (R148). -/
def Stream.off : Stream := ⟨0, 0, 0, 0, 0, 0, 0, 0, false⟩

/-- What a QFENCE holds back (R210): the numbers below which the entries of CQ0, CQ1 and XQ must be done first. -/
structure After where
  c0 : Nat
  c1 : Nat
  x : Nat
  deriving DecidableEq, Repr

/-- No QFENCE yet. -/
def After.zero : After := ⟨0, 0, 0⟩

/-- An entry of CQ0 or CQ1 (R396): QCOPY has a source, QPUT a value; the level it was issued at; the elements done; its
number among the hart's entries and what it must wait for (R210). -/
structure CopyEntry where
  source : Option Stream
  value : Word
  dest : Stream
  n : Nat
  sync : Word
  level : Level
  done : Nat
  seq : Nat
  after : After
  deriving DecidableEq, Repr

/-- The three fabric transfers (R400). -/
inductive FabricKind where
  | put | get | signal
  deriving DecidableEq, Repr

/-- An entry of XQ (R400); the cycle in which its request to another package went out, and what came back (R38). -/
structure FabricEntry where
  kind : FabricKind
  remote : BitVec 56
  here : Word
  n : Nat
  level : Level
  done : Nat
  seq : Nat
  after : After
  issued : Option Nat
  answer : Option RemoteReply
  deriving DecidableEq, Repr

/-- A tile (R371): KC, DEFINED, the kind (true: F32) and the 32-bit cells, row by row. -/
structure Tile where
  kc : Nat
  defined : Bool
  cells : List (BitVec 32)
  deriving DecidableEq, Repr

/-- What a strip shadows (R214): the vector, mask and tile registers. `m` holds m1 to m7 at 1 to 7. -/
structure VRegs where
  v : Vector Bits 32
  m : Vector Bits 8
  w : Vector Tile 4
  deriving DecidableEq, Repr

/-- One of the five exception indices, or all (R249): NV, DZ, OF, UF, NX. -/
abbrev Eidx := Vector (BitVec 32) 5

/-- An entry of a replay list (R216): the block, its snapshot, the word at which the strip's run of it begins, the writes before its
VFETCH (R161). -/
structure Replay where
  addr : Word
  regs : Vector Word 32
  start : Nat
  since : Nat
  deriving DecidableEq, Repr

/-- A store in the strip store buffer (R215, R221): where it goes, the bytes as a number, the width in bits; for a
4-bit element which nibble; the element; whether it is a release store; the scope. -/
structure BufStore where
  lane : Option Nat
  va : Word
  loc : Nat
  key : Nat
  bits : Nat
  width : Nat
  high : Bool
  elem : Nat
  release : Bool
  scope : Nat
  deriving DecidableEq, Repr

/-- A page touched by a strip (R174): its address, the location the check found, whether it was written, the least element that
touched it so. -/
structure Touch where
  va : Word
  loc : Nat
  wrote : Bool
  elem : Nat
  deriving DecidableEq, Repr

/-- An open strip (R213): its replay list, the opening values (the shadows of R214 are the registers themselves;
an abort restores these), the opening VL and VBL, the store buffer and the charge of each lane, the pending FLAGS
and EIDX, the pages touched, the named streams, TRIM, whether it stands aborted (R218), the registers written (v0-v31,
then masks from 32 on) with the width and the elements (R220), the tile rows marked reset (R383), the cells whose
pending extension count was folded (R384), the events of the scope checker that its loads met: element, location, requesters (R208,
R274).
`flags` holds the contributions that carry no index (matrix instructions); those with an index are the entries of `eidx`. -/
structure Strip where
  replay : List Replay
  opening : VRegs
  openVl : Nat
  openVbl : Nat
  stores : List BufStore
  charge : Table Nat
  flags : BitVec 5
  eidx : Eidx
  touched : List Touch
  named : List Nat
  trim : Bool
  aborted : Bool
  written : List (Nat × Nat × Nat)
  resets : List (Nat × Nat)
  ext : List (Nat × Nat × Nat)
  events : List (Nat × Nat × Nat)
  deriving DecidableEq, Repr

/-- An entry of the vector queue (R158), and, for the running block, how far it has run: the word index of the
convoy's head, the words of the convoy, the next member, what y0-y7 held at the head, and a wait under way; the writes before its
VFETCH (R161); the k-steps of the next member that were done before the lease stopped (R235). -/
structure Block where
  addr : Word
  regs : Vector Word 32
  head : Nat
  words : List Nat
  next : Nat
  steps : Nat
  y : Vector Word 8
  ended : Bool
  since : Nat
  deriving DecidableEq, Repr

/-- A link of VGLNK (R359): the element, its address, where that lay, whether the strip that made it is still open. -/
structure Link where
  elem : Nat
  va : Word
  loc : Nat
  strip : Bool
  deriving DecidableEq, Repr

/-- An element that a VWAITV has not seen satisfied yet (R363): its number, its address, where that lies, the window
it is seen through. -/
structure Watch where
  elem : Nat
  va : Word
  loc : Nat
  win : Nat
  deriving DecidableEq, Repr

/-- A Marrow entry (R381): the tile, the row, the column, the signed count, the pending mark. -/
structure MarrowEntry where
  tile : Nat
  row : Nat
  col : Nat
  count : Int
  pending : Bool
  deriving DecidableEq, Repr

/-- An open matrix session (R368): KIND (true: F32), ML, NL, the extension area, the cells (tile, row, column) whose
extension counts it has written (R369), each with the word it wrote; `2^32` stands for counts that have become
unpredictable (R386). -/
structure Session where
  kind : Bool
  ml : Nat
  nl : Nat
  area : Word
  cells : List ((Nat × Nat × Nat) × Nat)
  deriving DecidableEq, Repr

/-- The vector side of a hart: R280's registers, live and as software sees them; y0-y7 visible and as the blocks
write them (R158); the status of the last block to leave the queue (R393); the queue; the strip; the registers; the
lane-local stores (R164): the bytes written (256 stands for a byte not written), and for each lane the seed of its
undefined bytes (R125, log 3); the Marrow entries; the session; `reopen`, when a
strip has ended at a commit point and the next has yet to open, trimmed or not (R137); `maskPods`, the Pods of the grant whose mask bits the
next VSETL carries over at its own width, where a resumption has changed the count (R125, R137); the head of the last convoy that
retired in the strip and its words (R270). -/
structure Vec where
  vl : Nat
  vbl : Nat
  fmt : Fmt
  blk : Bool
  seenVl : Nat
  seenVbl : Nat
  cxa : Word
  y : Vector Word 8
  yBlock : Vector Word 8
  status : Option Bool
  queue : List Block
  strip : Option Strip
  reopen : Option Bool
  maskPods : Option Nat
  last : Word × Nat
  regs : VRegs
  lanes : Table Nat
  laneSeeds : List Nat
  marrow : List MarrowEntry
  session : Option Session
  resrep : BitVec 16
  aborts : BitVec 16
  deriving DecidableEq, Repr

/-- The states of a lease (R122). -/
inductive LeaseState where
  | none | wait | held | suspended
  deriving DecidableEq, Repr

/-- A lease request without its priority (R120). -/
structure Request where
  min : Nat
  pref : Nat
  sq : Nat
  quota : Nat
  mode : Bool
  deriving DecidableEq, Repr

/-- No request. -/
def Request.zero : Request := ⟨0, 0, 0, 0, false⟩

/-- What a suspension keeps (R136, R233, R140): the spill CAUSE, mid-strip or clean, the Pods held, whether Lease
Impossible has been raised for it: in which depth its handler runs. -/
structure Suspension where
  cause : Nat
  mid : Bool
  pods : Nat
  raised : Option Nat
  deriving DecidableEq, Repr

/-- A lease: VLREQ (R121), the bounds in force (R129), VGRANT (R141), the Pods by position (R117) and those promised
(R131, R132), the rank keys (R128), a suspension (R136), a revocation decided on: when and with which CAUSE (R232), the spill area,
its used part, and whether the lease has waited for one (R233). -/
structure Lease where
  state : LeaseState
  req : Request
  force : Request
  pri : Nat
  pods : List Nat
  promised : List Nat
  next : Nat
  die : Nat
  clu : Nat
  stable : Bool
  revoke : BitVec 16
  shrink : BitVec 16
  entered : Nat
  granted : Nat
  susp : Option Suspension
  draining : Option (Nat × Nat)
  area : Option Nat
  used : Nat
  areaWait : Bool
  deriving DecidableEq, Repr

/-- No lease, with a priority (R121: 0 in an empty slot). -/
def Lease.empty (die clu pri : Nat) : Lease :=
  { state := .none, req := .zero, force := .zero, pri := pri, pods := [], promised := [], next := 0, die := die, clu := clu,
    stable := false, revoke := 0, shrink := 0, entered := 0, granted := 0, susp := none, draining := none, area := none, used := 0, areaWait := false }

/-- The floating-point registers (R249). -/
structure Fp where
  flags : BitVec 5
  frm : BitVec 2
  eidx : Eidx
  deriving DecidableEq, Repr

/-- A trap frame (R227). -/
structure Frame where
  cause : BitVec 8
  epc : Word
  tval : Word
  rpc : Word
  plv : BitVec 2
  vec : Bool
  rply : Bool
  deriving DecidableEq, Repr

/-- The frame of a slot that has taken no trap (R148). -/
def Frame.zero : Frame := ⟨0, 0, 0, 0, 0, false, false⟩

/-- A pending vector trap (R226). -/
structure VTrap where
  cause : BitVec 8
  tval : Word
  epc : Word
  deriving DecidableEq, Repr

/-- The trap registers of a slot (R223), the breakpoints (R267), the frames of a management core's slot (log 8; the
other slots keep theirs in their context area, R230), the pending vector trap, the held events of R225, and whether
the next instruction is the first after a TRET (R268); TIME at the entry of each depth (R433). -/
structure Traps where
  depth : Nat
  emuv : Word
  uscr : Word
  stvec : Word
  sscr : Word
  mtvec : Word
  mscr : Word
  bpa0 : Word
  bpa1 : Word
  bpctl : Bool
  frames : Vector Frame 2
  vtrap : Option VTrap
  held : List (BitVec 8 × Word)
  afterTret : Bool
  times : Vector Word 2
  deriving DecidableEq, Repr

/-- The selectors held for each hart slot (R17, R22, R40, R84, R142, R269). -/
structure Selectors where
  snsel : BitVec 9
  hlsel : BitVec 8
  psel : BitVec 6
  gstat : BitVec 32
  twsel : BitVec 8
  arbsel : BitVec 4
  trsel : BitVec 2
  deriving DecidableEq, Repr

/-- EVL[5:0], OUT, EVR and MHBASE (R149); the bits of EVL whose event has come in this cycle (R156). -/
structure Events where
  evl : BitVec 6
  recent : BitVec 6
  out : Nat
  evr : Word
  mhbase : Word
  deriving DecidableEq, Repr

/-- Place in the work (R149): HIX, GSZ, NODE, GRAPH, and the run the hart belongs to. -/
structure Place where
  hix : BitVec 13
  gsz : BitVec 13
  node : BitVec 16
  graph : BitVec 56
  run : Option Nat
  deriving DecidableEq, Repr

/-- The slip counters (R265). -/
structure Cycles where
  scalar : Word
  vector : Word
  memory : Word
  lease : Word
  idle : Word
  deriving DecidableEq, Repr

/-- The stream registers and the queues (R276, R396, R400), the number of the next entry, and what each queue's next
entry must wait for (R210). -/
structure Queues where
  q : Vector Stream 16
  cq0 : List CopyEntry
  cq1 : List CopyEntry
  xq : List FabricEntry
  issued : Nat
  fence0 : After
  fence1 : After
  fenceX : After
  deriving DecidableEq, Repr

/-- A message (R150) with what it carries besides its eight words. -/
structure Message where
  hnd : BitVec 8
  reply : Bool
  tok : Bool
  sender : HartId
  uid : Nat
  sup : Bool
  kslot : BitVec 8
  tokaddr : Word
  p : Vector Word 6
  ptroot : BitVec 56
  mhbase : Word
  feat : BitVec 6
  deriving DecidableEq, Repr

/-- What comes back for a message (R152, R153): to which hart, the value, whether a handler failed, whether a reply
was awaited, the die it comes from. -/
structure Reply where
  uid : Nat
  value : Word
  failed : Bool
  awaited : Bool
  die : Nat
  deriving DecidableEq, Repr

/-- What a hart is waiting in or for: the stall its next instruction met (R145), an arrived BARJ (R402), a pending
cancel request and its time (R108), a pre-emption under way (R238), a move to a die and the cycle it began (R101),
the begin of the reservation for which it has been left in place (R101), VWAITV's deadline, whether it has been woken, the elements it watches, the lowest of those that met Poison (R363); what the convoy
at the head of its vector queue waits for (R266). -/
structure Waiting where
  stall : Option Stall
  barj : Option (Nat × Nat)
  cancel : Option Nat
  preempt : Bool
  move : Option (Nat × Nat)
  stays : Option Nat
  deadline : Option Nat
  woken : Bool
  watch : List Watch
  bad : Option (Nat × Word)
  vstall : Option Stall
  deriving DecidableEq, Repr

/-- What slot 7 runs (R151-R154): the message, how many instructions it has issued, whether its entry has still to be read (R152), the
cycle from which it is ready (R151). -/
structure Handler where
  msg : Message
  issued : Nat
  pending : Bool
  ready : Nat
  deriving DecidableEq, Repr

/-- The base registers of a hart slot: PC, g0-g31 (R276), the level (R222), the key slot, PTROOT (R97), the features
available to the hart (R71). -/
structure Base where
  pc : Word
  g : Vector Word 32
  level : Level
  key : BitVec 8
  ptroot : BitVec 56
  feat : BitVec 6
  deriving DecidableEq, Repr

/-- One hart slot. `uid` tells harts that use one slot after another apart (the model's own). -/
structure Hart where
  id : HartId
  uid : Nat
  occ : Occupancy
  base : Base
  fp : Fp
  trap : Traps
  sel : Selectors
  ev : Events
  place : Place
  cyc : Cycles
  qs : Queues
  vec : Vec
  lease : Lease
  wait : Waiting
  handler : Option Handler
  links : List Link
  linkSet : List Nat
  allFail : Nat
  deriving DecidableEq, Repr

/-! ### Cores, clusters, dies -/

/-- A scalar core: the messages on their way to it in order of sending, its queue (R151), `last` (R146), the program
slots that must issue before the next handler starts (R146), the instruction words its L1 may hold (R189); the cycle of its last choice and the slot
chosen, 8 for the start of a handler (R146). -/
structure Core where
  id : CoreId
  wire : List Message
  queue : List Message
  last : Nat
  owed : List Nat
  l1 : List (Nat × Nat)
  chose : Option (Nat × Nat)
  deriving DecidableEq, Repr

/-- A cluster: the programmed throttle and the one in force (R12, R20), CLAMP (R14), the key slot that last held each
Pod (R119), the head's reservation (R131): its hart and its begin; the Marrow entries that each key slot has written (R62). -/
structure Cluster where
  die : Nat
  clu : Nat
  thr : Nat
  force : Nat
  clamp : Bool
  podKey : Table Nat
  head : Option (Nat × Nat)
  marrow : Table Nat
  deriving DecidableEq, Repr

/-- A thermal sensor (R17): TEMP, which before the first sample is a free value (log 15), and ALERT; the cycle of the last sample, whether it was
at or above THALERT, whether it raised the event (R19). -/
structure Sensor where
  temp : Option (BitVec 12)
  alert : Bool
  sampled : Option Nat
  hot : Bool
  told : Bool
  deriving DecidableEq, Repr

/-- A Pod's health record (R22) and the cycles of its recent mismatches (R24). AGE is a free value until it is
measured or restored (log 15). `doomed` is the cause of a retirement that waits for the Pod's lease (R25). -/
structure Pod where
  eol : BitVec 16
  age : Option (BitVec 16)
  cause : BitVec 4
  retired : Bool
  doomed : BitVec 4
  valid : Bool
  strh : BitVec 20
  mism : List Nat
  deriving DecidableEq, Repr

/-- A live Pod at its reset values (R22). -/
def Pod.fresh : Pod := ⟨0xFFFF, none, 0, false, 0, false, 0, []⟩

/-- What a port sends (R35, R400): a NAK with the last SEQ received in order, a request to a package, the response to one; to another package what
a gang engine tells it (R41); on a link between dies traffic of one die with the other, of a cycle (R30). -/
inductive PortOut where
  | nak (seq : BitVec 12)
  | request (pkg : Nat) (tag : BitVec 32)
  | response (tag : BitVec 32) (reply : RemoteReply)
  | gang (pkg : Nat) (w : GangWord)
  | access (cycle : Nat)
  deriving DecidableEq, Repr

/-- A scale-up port, or a die's end of a link to another die (R30, R35, R36, R40): PSTAT, the next SEQ to send, the last SEQ received in
order, the flits not yet acknowledged with their SEQ, how often the first of them has been replayed in a row, whether it is retraining,
what it has sent, what waits to be sent, the flits received in order whose work waits. -/
structure Port where
  lanes : Nat
  trained : Bool
  evt : Bool
  replay : BitVec 16
  crcerr : BitVec 16
  drop : BitVec 16
  seq : BitVec 12
  rcvd : Option (BitVec 12)
  unacked : List (BitVec 12 × PortOut)
  again : Nat
  retraining : Bool
  sent : List PortOut
  waiting : List PortOut
  held : List Flit
  deriving DecidableEq, Repr

/-- A port before training (R40). -/
def Port.fresh : Port := ⟨0, false, false, 0, 0, 0, 0, none, [], 0, false, [], [], []⟩

/-- A page the steward keeps (R183): where its leaf lies, its root and address, its origin and its frame. -/
structure StewardPage where
  leaf : Nat
  origin : Nat
  frame : Nat
  key : Nat
  ptroot : BitVec 56
  va : Nat
  deriving DecidableEq, Repr

/-- A steward service under way (R183): the leaf's location, the entry found, the root and address,
who waits for it, whether it waits for a frame (R186). -/
structure Service where
  leaf : Nat
  entry : Nat
  ptroot : BitVec 56
  va : Nat
  waiters : List Nat
  waiting : Bool
  deriving DecidableEq, Repr

/-- The steward of a die (R183, R184): its ring and counters, the services under way, the pages it keeps. -/
structure Steward where
  ring : Word
  tail : BitVec 32
  head : BitVec 32
  serv : BitVec 16
  evict : BitVec 16
  waits : BitVec 16
  badfr : BitVec 16
  services : List Service
  pages : List StewardPage
  deriving DecidableEq, Repr

/-- A trace record (R270): the first word, GEN and NODE, TIME, HEAD, VALUE. -/
structure TraceRec where
  kind : Nat
  nmem : Nat
  hix : BitVec 13
  gen : BitVec 16
  node : BitVec 16
  time : Word
  head : Word
  value : Word
  tail : Bool
  deriving DecidableEq, Repr

/-- A trace session (R269-R273): the registers, records written, staged records, the generation last seen; the
graph's root and key slot; the TIME of a start whose header has still to be written, and whether STOP and LOSS of a stop have (R273). -/
structure Trace where
  en : Bool
  mask : BitVec 8
  stop : BitVec 3
  graph : BitVec 56
  log2 : BitVec 4
  va : BitVec 48
  loss : BitVec 32
  wpos : Nat
  staged : List TraceRec
  gen : BitVec 16
  ptroot : BitVec 56
  key : BitVec 8
  opening : Option Word
  closing : Bool
  deriving DecidableEq, Repr

/-- A session at reset (R269). -/
def Trace.fresh : Trace := ⟨false, 0, 0, 0, 0, 0, 0, 0, [], 0, 0, 0, none, false⟩

/-- What waits to be written to an audit log (R67, R68): the record of a range, its owner and bytes 80 to 255, final or a
snapshot that the next interval refreshes; a checkpoint. -/
inductive AuditPending where
  | range (i owner : Nat) (body : List Byte) (final : Bool)
  | checkpoint
  deriving DecidableEq, Repr

/-- An audit log of a die (R66-R68): its interval in µs and when the next one ends, ring, length, consumer word, next SEQ, the
last record, the SEQ that followed the last checkpoint (0 before it), what waits for room, in order, and whether an AUDLOG waits for its
last checkpoint. -/
structure AuditLog where
  interval : Nat
  due : Nat
  ring : Nat
  len : Nat
  consumer : Nat
  seq : Nat
  prev : List Byte
  mark : Nat
  pending : List AuditPending
  closing : Bool
  deriving DecidableEq, Repr

/-- The start-up status of a die (R28). -/
structure Boot where
  step : Nat
  warm : Bool
  fail : Nat
  detail : Nat
  deriving DecidableEq, Repr

/-- A die: start-up, sensors and power with the cycle of its last measurement (R15, R17-R21), Pods (R22-R26), links and ports (R30-R40; in `ports` 36 + d is the end of the link to
die d), spill pool (R223, R233) with the areas
that have still to be written with zeros, and how far,
steward, TOKUNB (R84), trace sessions, scope checker (R274), audit log. -/
structure Die where
  boot : Boot
  sensors : Table Sensor
  thalert : BitVec 12
  pwrnow : BitVec 16
  measured : Option Nat
  hmargin : BitVec 16
  pods : Table Pod
  up : BitVec 4
  downev : BitVec 4
  retry : BitVec 16
  ports : Table Port
  launchto : BitVec 20
  splbase : Word
  spln : BitVec 16
  splUsed : List Nat
  splZero : Table Nat
  splWaits : BitVec 16
  steward : Steward
  tokunb : BitVec 32
  traces : Vector Trace 4
  sckEn : Bool
  sckCount : BitVec 32
  sckValid : Bool
  sckAddr : BitVec 56
  log : Option AuditLog
  deriving DecidableEq, Repr

/-! ### The package -/

/-- A tenant key slot (R56); keys are pairs of 256-bit numbers. -/
inductive KeySlot where
  | empty | loaded (k1 k2 : Nat) | releasing
  deriving DecidableEq, Repr

/-- An audit range (R65). -/
structure AuditRange where
  owner : BitVec 8
  enable : Bool
  base : Nat
  limit : Nat
  counts : Vector Word 10
  first : Word
  last : Word
  changed : Bool
  deriving DecidableEq, Repr

/-- A cached translation (R175): whose cache (log 7), the root, the page's first address and size, the leaf. -/
structure TlbEntry where
  holder : Nat
  ptroot : BitVec 56
  page : Nat
  size : Nat
  leaf : Nat
  deriving DecidableEq, Repr

/-- The tag of the scope checker (R274): the scope and requester of a release, and the uid of the hart that the requester is, 0 for another
requester. -/
structure Tag where
  scope : Nat
  requester : HartId
  uid : Nat
  deriving DecidableEq, Repr

/-- Bytes `lo` to `hi - 1` as they stood before a write (R161, R189): the owner then, the number of the write, and the flushes that
have covered it: scope, hart, line. -/
structure Stale where
  lo : Nat
  hi : Nat
  old : Mem
  key : Nat
  serial : Nat
  flushed : List (Nat × HartId × Nat)
  deriving DecidableEq, Repr

/-- The memories and what guards them: the bytes, the owners of frames and blocks (R58, R169), lines with a lasting
defect and lines with a soft error (R27), the key slot that wrote each line of HBM last (R62), key slots, cached translations, the failures of steward services that some access has still to take
(R183: who, the leaf, the cause), audit ranges, release tags (R274), the lock of R361: its holder's uid,
its lines, its grant; the harts that wait for it; the old words that a fetch may still return (R161, R189) and the number of writes. -/
structure Store where
  bytes : Mem
  owners : Table Nat
  poison : List Nat
  soft : List Nat
  lines : Table Nat
  keys : Table KeySlot
  tlb : List TlbEntry
  failed : List (Nat × Nat × Nat)
  ranges : Table AuditRange
  tags : List (Nat × Tag)
  lock : Option (Nat × List Nat × Nat)
  lockQueue : List Nat
  stale : List Stale
  serial : Nat
  deriving DecidableEq, Repr

/-- A node entry of a ready queue (R92, R93): the graph, the node, its slot, its priority, its entry time; a
pre-empted hart waits here under its uid (R238); whether it has been dispatched in vain (R94). -/
structure Ready where
  home : Nat
  graph : BitVec 56
  node : Nat
  slot : BitVec 8
  prio : Nat
  entered : Nat
  parked : Option Nat
  tried : Bool
  deriving DecidableEq, Repr

/-- The states of a run (R88, R89): placing, running, retrying, cancelling; of a launch that failed without commit, whose
node has gone on (R42); of a run whose node is DONE while harts of it still retire (R99). -/
inductive RunState where
  | placing | running | retrying | cancelling | aborted | ended
  deriving DecidableEq, Repr

/-- The first failure of a run (R102, R116); the TIME of the trap that it follows, where there is one (R433). -/
structure Failure where
  reason : Nat
  code : Nat
  fhix : Nat
  epc : Word
  tval : Word
  loc : Option HartId
  lost : Nat
  time : Option Word
  deriving DecidableEq, Repr

/-- A barrier of a gang (R402): the arrivals of each member by HIX, the members that have left, the released count. -/
structure Barrier where
  arrived : Table (BitVec 32)
  left : List Nat
  r : BitVec 32
  deriving DecidableEq, Repr

/-- A run of a node (R89): what the record said when it was dispatched, the harts still to start, those that live,
those done; the failure; the barriers; the die and the cluster of its first hart; whether it is launched across dies, the dies that
have committed, and the TFAILs held until then (R41); its output ranges (R78); the cycle of the first failure (R102); its harts in other
packages, package and HIX, that have still to end, and, where this package only takes part, its home package and its number there (R41). -/
structure Run where
  id : Nat
  home : Nat
  graph : BitVec 56
  node : Nat
  gen : BitVec 16
  slot : BitVec 8
  ptroot : BitVec 56
  state : RunState
  cores : Bool
  place : Nat
  prio : Nat
  gsize : Nat
  entry : Word
  args : Word
  req : Request
  entered : Nat
  toStart : List Nat
  live : List Nat
  failure : Option Failure
  nfailh : Nat
  bars : Vector Barrier 8
  anchor : Nat × Nat
  launch : Bool
  committed : List Nat
  held : List (Nat × Failure)
  outputs : List (Nat × Nat)
  failedAt : Nat
  far : List (Nat × Nat)
  origin : Option (Nat × Nat)
  deriving DecidableEq, Repr

/-- A visit under way (R112): the node, the cycle of step 1, whether steps 2 to 4 are done, whether step 5 is, whether the node became
SKIPPED, whether its successors are to be queued. -/
structure Visit where
  node : Nat
  since : Nat
  marked : Bool
  told : Bool
  skips : Bool
  queues : Bool
  deriving DecidableEq, Repr

/-- A cancellation walk (R110-R113): its origin, the nodes in its queue, those that have been in it, whether it visits
every node, the visit under way. -/
structure Walk where
  origin : Nat
  queue : List Nat
  seen : List Nat
  all : Bool
  visit : Option Visit
  deriving DecidableEq, Repr

/-- An attached graph (R85): its header, home die, key slot, walks in order. -/
structure Attached where
  header : BitVec 56
  home : Nat
  slot : BitVec 8
  ptroot : BitVec 56
  ncount : Nat
  vector : Nat
  walks : List Walk
  deriving DecidableEq, Repr

/-- A launch (R41, R42): its run, the dies that take part with their harts (4 + p stands for die 0 of package p), the messages on their way, the dies whose ACK has
arrived, the timeout. -/
structure Launch where
  run : Nat
  plan : List (Nat × List Nat)
  prepare : List Nat
  prepared : List Nat
  acks : List Nat
  nacks : List Nat
  commits : List Nat
  aborts : List Nat
  deadline : Nat
  deriving DecidableEq, Repr

/-- Tokens on their way to a word (R81): the receiving die, the physical address, the count. -/
structure Tokens where
  die : Nat
  addr : Nat
  n : Nat
  deriving DecidableEq, Repr

/-- A reservation of a die (R94): the node, or the pre-empted hart, its begin, the Pods and the program slots of the die that have been free since then. -/
structure Reserve where
  die : Nat
  graph : BitVec 56
  node : Nat
  parked : Option Nat
  since : Nat
  had : List Nat
  slots : List HartId
  deriving DecidableEq, Repr

/-- The graph engines: the directory of R82 (word to graph and node), the attached graphs, TWEIGHT (R84) and the
round robin of each die (R93), the ready queues, the runs, the reservations (R94), the launches, the tokens under
way, the pre-empted harts (R238), the number of the next run; the engines' own copies of the fields they write in headers and
records, by physical address (R74, R75). -/
structure Engines where
  directory : Table (BitVec 56 × Nat)
  attached : List Attached
  weight : Table Nat
  turnSlot : Table (Nat × Nat)
  ready : List Ready
  runs : List Run
  reserved : List Reserve
  launches : List Launch
  tokens : List Tokens
  parked : List Hart
  nextRun : Nat
  own : Mem
  deriving DecidableEq, Repr

/-- The retained region (R27, R63, R70): whether the parameter entry stands (nothing that a program sees rests on what was trained), the
retirement map and the records (CAUSE, STRH, AGE) with good digests, by the Pod's number in the package, the releases and the starts since manufacture. -/
structure Retained where
  params : Bool
  map : Option (List (Nat × Nat × BitVec 4))
  records : Table (BitVec 4 × BitVec 20 × BitVec 16)
  releases : Nat
  starts : Nat
  deriving DecidableEq, Repr

/-- A request of the device for `n` bytes of host memory (R48): who waits for it, the package offset, the bus address, the cycle. -/
structure HostRead where
  who : Nat
  loc : Nat
  bus : Nat
  n : Nat
  cycle : Nat
  deriving DecidableEq, Repr

/-- The host's answer to a request, or its failure (R48). -/
structure HostAnswer where
  who : Nat
  loc : Nat
  n : Nat
  value : Option Nat
  deriving DecidableEq, Repr

/-- What the port sends: a posted write to a bus address of host memory (R48), one of a nibble (R192), a completion with its bytes, some of them poisoned
(R47), a Completer Abort (R47), an MSI-X message (R55). -/
inductive Sent where
  | write (bus n value : Nat)
  | nibble (bus : Nat) (high : Bool) (value : Nat)
  | completion (bytes : List Byte) (poisoned : Bool)
  | abort
  | message (address data : Nat)
  deriving DecidableEq, Repr

/-- A request of the host that waits: FetchAdd, a read, a write of the device memory window; a write or another request of the other
windows behind it. -/
inductive HostWait where
  | fetchadd (off : Nat) (a : Word)
  | read (off n : Nat)
  | write (off : Nat) (bytes : List Byte)
  | config (off n : Nat) (v : Word)
  | other (r : HostRequest)
  deriving DecidableEq, Repr

/-- The host port (R49, R50, R55, R60): the registers of BAR 0, the mailbox and whether the command is performed, the MSI-X
table with its mask bits inverted (log 25) and pending bits, the
requests of the device to host memory, and what the port has sent: completions and MSI-X messages; the host's requests that wait, in
the order of their arrival (R54, R361). -/
structure Port0 where
  featmask : BitVec 6
  time : Word
  phase : Nat
  tokbase : Word
  hwbase : Word
  herr : Word
  hapt : Table (BitVec 9)
  mbcmd : BitVec 8
  busy : Bool
  ovr : Bool
  mbdone : Bool
  mbresult : Nat × Nat
  mbdata : Mem
  msix : Mem
  fmask : Bool
  pba : Table Bool
  requests : List HostRead
  answers : List HostAnswer
  sent : List Sent
  held : List HostWait
  deriving DecidableEq, Repr

/-- What an arbiter's round of this cycle has changed (R26): its cluster, the harts as they stood before it, the head and the keys of
the Pods. -/
structure RoundMemo where
  die : Nat
  clu : Nat
  harts : List Hart
  head : Option (Nat × Nat)
  podKey : Table Nat
  deriving DecidableEq, Repr

/-- A move an agent makes next (log 6). -/
inductive Act where
  /-- A hart slot issues its next instruction: the slot that its core chose (R146). -/
  | issue (h : HartId)
  /-- A core chooses a slot and issues (R146). -/
  | core (k : CoreId)
  /-- The convoy sequencer of a lease runs the next vector word (R161). -/
  | convoy (h : HartId)
  /-- An event of the table. -/
  | event (i : Instr)
  /-- A link takes the oldest flit from one die to another (R30). -/
  | deliver (a b : Nat)
  /-- Core cycles pass. -/
  | tick (n : Nat)
  deriving DecidableEq, Repr

/-- The state of the package. `cur` is the hart slot in focus and `others` every other slot that is not at its reset
value; scalar and vector instructions are those of the slot in focus. `replies` are those on their way (R152), `rounds` what the rounds of this cycle changed (R26). `agenda`, `turn` and `free` are the model's own
(logs 3 and 6). -/
structure State where
  cur : Hart
  others : List Hart
  replies : List Reply
  cores : List Core
  clusters : List Cluster
  dies : Vector Die 4
  store : Store
  engines : Engines
  port : Port0
  retained : Retained
  pkgid : BitVec 12
  links : Table Nat
  warm : Bool
  cycle : Nat
  nextUid : Nat
  rounds : List RoundMemo
  agenda : List Act
  turn : Nat
  free : Nat
  deriving DecidableEq, Repr

/-! ### Reset -/

/-- g0-g31 at zero (R97; log 1). -/
def zeroRegs : Vector Word 32 := Vector.replicate 32 0

/-- An undefined tile (R371). -/
def Tile.undef : Tile := ⟨0, false, []⟩

/-- Vector, mask and tile registers of a slot without a lease. -/
def VRegs.zero : VRegs := ⟨Vector.replicate 32 0, Vector.replicate 8 0, Vector.replicate 4 .undef⟩

/-- No element recorded (R148, R249). -/
def Eidx.clear : Eidx := Vector.replicate 5 0xFFFFFFFF

/-- The vector side at its start values (R148). -/
def Vec.reset : Vec :=
  { vl := 0, vbl := 0, fmt := .i8, blk := false, seenVl := 0, seenVbl := 0, cxa := 0, y := Vector.replicate 8 0,
    yBlock := Vector.replicate 8 0, status := none, queue := [], strip := none, reopen := none, maskPods := none, last := (0, 0), regs := .zero, lanes := [], laneSeeds := [], marrow := [],
    session := none, resrep := 0, aborts := 0 }

/-- A wait for nothing. -/
def Waiting.reset : Waiting := ⟨none, none, none, false, none, none, none, false, [], none, none⟩

/-- An empty hart slot (R148 for what it lists, the Reset columns of R17, R22, R40, R84, R121, R142, R149, R223, R249,
R265, R267, R269, R280; the rest log 1). -/
def Hart.reset (id : HartId) : Hart :=
  { id := id, uid := 0, occ := .empty
    base := { pc := 0, g := zeroRegs, level := if id.clu = Config.mgmtCluster then .management else .user, key := 0, ptroot := 0, feat := Config.devFeat }
    fp := { flags := 0, frm := 0, eidx := Eidx.clear }
    trap := { depth := 0, emuv := 0, uscr := 0, stvec := 0, sscr := 0, mtvec := 0, mscr := 0, bpa0 := 0, bpa1 := 0,
              bpctl := false, frames := Vector.replicate 2 .zero, vtrap := none, held := [], afterTret := false, times := Vector.replicate 2 0 }
    sel := ⟨0, 0, 0, 0, 0, 0, 0⟩
    ev := ⟨0, 0, 0, 0, 0⟩
    place := ⟨0, 0, 0, 0, none⟩
    cyc := ⟨0, 0, 0, 0, 0⟩
    qs := ⟨Vector.replicate 16 .off, [], [], [], 1, .zero, .zero, .zero⟩
    vec := .reset
    lease := .empty id.die id.clu 0
    wait := .reset
    handler := none, links := [], linkSet := [], allFail := 0 }

/-- A core at reset (R146, R151). -/
def Core.reset (k : CoreId) : Core := ⟨k, [], [], 6, [], [], none⟩

/-- A cluster at reset (R20). -/
def Cluster.reset (die clu : Nat) : Cluster := ⟨die, clu, 16, 16, false, [], none, []⟩

/-- A die at reset (the Reset columns of R17-R28, R40, R84, R184, R223, R269, R274). -/
def Die.reset : Die :=
  { boot := ⟨0, false, 0, 0⟩, sensors := [], thalert := 760, pwrnow := 0, measured := none, hmargin := 2000, pods := [], up := 0, downev := 0,
    retry := 0, ports := [], launchto := 200, splbase := 0, spln := 0, splUsed := [], splZero := [], splWaits := 0,
    steward := ⟨0, 0, 0, 0, 0, 0, 0, [], []⟩, tokunb := 0, traces := Vector.replicate 4 .fresh, sckEn := false, sckCount := 0,
    sckValid := false, sckAddr := 0, log := none }

/-- The memories at reset: all zero and free (R27, R58, R169), slot 0 not yet loaded (R56). -/
def Store.reset : Store := ⟨[], [], [], [], [], [], [], [], [], [], none, [], [], 0⟩

/-- The engines at reset: no graph attached, every weight 1 (R84). -/
def Engines.reset : Engines := ⟨[], [], [], [], [], [], [], [], [], [], 0, []⟩

/-- The host port at reset (R50, R60). -/
def Port0.reset : Port0 := ⟨0, 0, 0, 0, 0, 0, [], 0, false, false, false, (0, 0), [], [], false, [], [], [], [], []⟩

/-- The package after power-on: start-up has not begun (R28, R51), no hart, nothing in memory (log 2 says how a
program comes to run). -/
def State.reset : State :=
  { cur := .reset ⟨0, 0, 0, 0⟩, others := [], replies := [], cores := [], clusters := [], dies := Vector.replicate 4 .reset, store := .reset,
    engines := .reset, port := .reset, retained := ⟨false, none, [], 0, 0⟩, pkgid := 0, links := [], warm := false, cycle := 0,
    nextUid := 1, rounds := [], agenda := [], turn := 0, free := 0 }

end Sys2Proof.Machine
end

