-- ==== Sys2Proof/Machine/Mem.lean ====
section
/-! DEFINITION. Bytes, tables and places: the canonical memory, the spaces of R164 and R165, the owners of R58 and
R169, the clock, the look-up of harts, cores, clusters and dies. -/

namespace Sys2Proof.Machine

/-! ### Memory and tables in canonical form -/

/-- The byte at an address. -/
def Mem.read : Mem → Nat → Byte
  | [], _ => 0
  | c :: m, a => if a < c.1 then 0 else if c.1 = a then c.2 else Mem.read m a

/-- Write one byte, keeping the canonical form. -/
def Mem.write : Mem → Nat → Byte → Mem
  | [], a, b => if b = 0 then [] else [(a, b)]
  | c :: m, a, b =>
    if a < c.1 then (if b = 0 then c :: m else (a, b) :: c :: m)
    else if c.1 = a then (if b = 0 then m else (a, b) :: m)
    else c :: Mem.write m a b

/-- Every address of the memory is at least `lo`, they rise strictly, and no byte is 0. -/
def Mem.wfFrom : Nat → Mem → Bool
  | _, [] => true
  | lo, c :: m => lo ≤ c.1 && c.2 != 0 && Mem.wfFrom (c.1 + 1) m

/-- The canonical form. -/
def Mem.wf (m : Mem) : Bool := Mem.wfFrom 0 m

/-- `n` bytes as a little-endian number (R3). -/
def Mem.readN (m : Mem) (a : Nat) : Nat → Nat
  | 0 => 0
  | n + 1 => (Mem.read m a).toNat + 256 * Mem.readN m (a + 1) n

/-- Write the low `n` bytes of a number, little-endian (R3). -/
def Mem.writeN (m : Mem) (a : Nat) : Nat → Nat → Mem
  | 0, _ => m
  | n + 1, v => Mem.writeN (Mem.write m a (BitVec.ofNat 8 v)) (a + 1) n (v / 256)

/-- Write zeros from `lo` up to `hi`. -/
def Mem.zero (m : Mem) (lo hi : Nat) : Mem := m.filter fun c => !(lo ≤ c.1 && c.1 < hi)

/-- Write bytes in order. -/
def Mem.writeBytes (m : Mem) (a : Nat) : List Byte → Mem
  | [] => m
  | b :: bs => Mem.writeBytes (Mem.write m a b) (a + 1) bs

/-- Read bytes in order. -/
def Mem.readBytes (m : Mem) (a : Nat) : Nat → List Byte
  | 0 => []
  | n + 1 => Mem.read m a :: Mem.readBytes m (a + 1) n

/-- The entry of a key, or the default. -/
def Table.get {α : Type} (d : α) : Table α → Nat → α
  | [], _ => d
  | c :: t, k => if k < c.1 then d else if c.1 = k then c.2 else Table.get d t k

/-- Set the entry of a key, keeping the canonical form. -/
def Table.set {α : Type} [DecidableEq α] (d : α) : Table α → Nat → α → Table α
  | [], k, x => if x = d then [] else [(k, x)]
  | c :: t, k, x =>
    if k < c.1 then (if x = d then c :: t else (k, x) :: c :: t)
    else if c.1 = k then (if x = d then t else (k, x) :: t)
    else c :: Table.set d t k x

/-- The keys of a table rise strictly from `lo` on. -/
def Table.risingFrom {α : Type} : Nat → Table α → Prop
  | _, [] => True
  | lo, c :: t => lo ≤ c.1 ∧ Table.risingFrom (c.1 + 1) t

/-- Little-endian bytes of a number. -/
def toBytes : Nat → Nat → List Byte
  | 0, _ => []
  | n + 1, v => BitVec.ofNat 8 v :: toBytes n (v / 256)

/-- The number that bytes stand for, little-endian. -/
def ofBytes : List Byte → Nat
  | [] => 0
  | b :: bs => b.toNat + 256 * ofBytes bs

/-- Add, saturating at the greatest value of the width. -/
def satAdd {w : Nat} (x : BitVec w) (n : Nat) : BitVec w := BitVec.ofNat w (min (x.toNat + n) (2 ^ w - 1))

/-! ### Spaces (R164, R165, R170) -/

/-- The storage a location lies in. -/
inductive Space where
  | hbm | chip | host | core | reserved
  deriving DecidableEq, Repr

/-- Where the core scratchpads stand in the model's addresses (log 4). -/
def scratchBase : Nat := 2 ^ 48

/-- The space of a location (R165). -/
def spaceOf (loc : Nat) : Space :=
  if loc < 0x8000000000 then .hbm
  else if 0x10000000000 ≤ loc ∧ loc < 0x10008000000 then .chip
  else if 0x80000000000 ≤ loc ∧ loc < 0x100000000000 then .host
  else if scratchBase ≤ loc then .core
  else .reserved

/-- The context areas of R170. -/
def inContext (loc : Nat) : Bool := spaceOf loc = .chip && 0x1800000 ≤ loc % 0x2000000

/-- Byte `o` of the scratchpad of a core (R164). -/
def scratchLoc (die clu core o : Nat) : Nat := scratchBase + (die * 272 + clu * 16 + core) * 0x40000 + o

/-- The context area of a hart slot of a cluster (R170). -/
def contextLoc (h : HartId) : Nat :=
  0x10000000000 + h.die * 0x2000000 + 0x1800000 + (h.clu * 128 + h.core * 8 + h.slot) * 0x1000

/-- The die of a location: a frame's stack (R166), a chip scratchpad's die (R165), a core's die; host memory hangs on
die 0 (R48). -/
def homeDie (loc : Nat) : Nat :=
  match spaceOf loc with
  | .hbm => loc / 0x10000 % 8 / 2
  | .chip => (loc - 0x10000000000) / 0x2000000
  | .core => (loc - scratchBase) / 0x40000 / 272
  | _ => 0

/-- No owner (R58). -/
def freeOwner : Nat := 0xFFFF

/-- The frame of R58 or the block of R169 that a location lies in. -/
def ownerKey (loc : Nat) : Nat :=
  match spaceOf loc with
  | .hbm => loc / 0x10000
  | _ => 2 ^ 40 + loc / 0x1000

/-- The owner of a location; the context areas are slot 0's (R170). -/
def Store.ownerOf (st : Store) (loc : Nat) : Nat :=
  if inContext loc then 0 else Table.get freeOwner st.owners (ownerKey loc)

/-- The state of a key slot (R56). -/
def Store.keyLoaded (st : Store) (key : Nat) : Bool :=
  match Table.get KeySlot.empty st.keys key with | .loaded _ _ => true | _ => false

/-- How an access under a key slot to a location is decided (R56, R58, R169). -/
inductive Guard where
  | performed | zeros | claims | refused
  deriving DecidableEq, Repr

/-- The decision of R58 and R169. -/
def Store.guard (st : Store) (key loc : Nat) (write : Bool) : Guard :=
  if !st.keyLoaded key then .refused
  else if st.ownerOf loc = key then .performed
  else if st.ownerOf loc = freeOwner then (if write then .claims else .zeros)
  else .refused

/-- A line that returns uncorrectable data, for a lasting defect or a soft error (R27); only HBM is read through such lines. -/
def Store.poisoned (st : Store) (loc n : Nat) : Bool :=
  spaceOf loc = .hbm && (st.poison ++ st.soft).any fun l => loc / 64 ≤ l && l ≤ (loc + n - 1) / 64

/-! ### Harts, cores, clusters, dies -/

/-- The hart slot of an identifier; a slot not listed stands at its reset value. -/
def State.hart (s : State) (h : HartId) : Hart :=
  if s.cur.id = h then s.cur
  else match s.others.find? fun x => x.id = h with
    | some x => x
    | none => .reset h

/-- Replace a slot's record in a list, or add it. -/
def putHart (x : Hart) : List Hart → List Hart
  | [] => [x]
  | y :: ys => if y.id = x.id then x :: ys else y :: putHart x ys

/-- Store a hart slot. -/
def State.setHart (s : State) (x : Hart) : State :=
  if s.cur.id = x.id then { s with cur := x } else { s with others := putHart x s.others }

/-- Change a hart slot. -/
def State.onHart (s : State) (h : HartId) (f : Hart → Hart) : State := s.setHart (f (s.hart h))

/-- Bring a hart slot into focus. -/
def State.focus (s : State) (h : HartId) : State :=
  if s.cur.id = h then s
  else { s with cur := s.hart h, others := putHart s.cur (s.others.filter fun x => x.id ≠ h) }

/-- Every hart slot that is not at its reset value. -/
def State.harts (s : State) : List Hart := s.cur :: s.others

/-- Change every hart slot. -/
def State.mapHarts (s : State) (f : Hart → Hart) : State := { s with cur := f s.cur, others := s.others.map f }

/-- The hart with a given uid. -/
def State.byUid (s : State) (u : Nat) : Option Hart := s.harts.find? fun x => x.uid = u && x.occ ≠ .empty

/-- The core of an identifier. -/
def State.core (s : State) (k : CoreId) : Core :=
  match s.cores.find? fun x => x.id = k with | some x => x | none => .reset k

/-- Replace a core's record in a list, or add it. -/
def putCore (x : Core) : List Core → List Core
  | [] => [x]
  | y :: ys => if y.id = x.id then x :: ys else y :: putCore x ys

/-- Change a core. -/
def State.onCore (s : State) (k : CoreId) (f : Core → Core) : State :=
  { s with cores := putCore (f (s.core k)) s.cores }

/-- A cluster. -/
def State.cluster (s : State) (die clu : Nat) : Cluster :=
  match s.clusters.find? fun x => x.die = die && x.clu = clu with | some x => x | none => .reset die clu

/-- Replace a cluster's record in a list, or add it. -/
def putCluster (x : Cluster) : List Cluster → List Cluster
  | [] => [x]
  | y :: ys => if y.die = x.die ∧ y.clu = x.clu then x :: ys else y :: putCluster x ys

/-- Change a cluster. -/
def State.onCluster (s : State) (die clu : Nat) (f : Cluster → Cluster) : State :=
  { s with clusters := putCluster (f (s.cluster die clu)) s.clusters }

/-- A die. -/
def State.die (s : State) (d : Nat) : Die := s.dies[d % 4]'(Nat.mod_lt _ (by decide))

/-- Has the package halted (R29)? -/
def State.halted (s : State) : Bool := (List.range 4).any fun d => (s.die d).boot.fail ≠ 0

/-- Change a die. -/
def State.onDie (s : State) (d : Nat) (f : Die → Die) : State :=
  { s with dies := s.dies.set (d % 4) (f (s.die d)) (Nat.mod_lt _ (by decide)) }

/-- A port of a die: a scale-up port below 36, else the end of the link to die `j - 36`. -/
def Die.port (d : Die) (j : Nat) : Port := Table.get Port.fresh d.ports j

/-- Change a port. -/
def State.onScalePort (s : State) (d j : Nat) (f : Port → Port) : State :=
  s.onDie d fun x => { x with ports := Table.set Port.fresh x.ports j (f (x.port j)) }

/-- The most flits that a sender holds unacknowledged (R36). -/
def replayDepth : Nat := 2048

/-- The port sends a flit, which waits for its acknowledgement; while it holds as many as it may, or retrains, the flit waits (R36). -/
def Port.send (p : Port) (x : PortOut) : Port :=
  if p.waiting ≠ [] ∨ p.unacked.length ≥ replayDepth ∨ p.retraining then { p with waiting := p.waiting ++ [x] }
  else { p with sent := p.sent ++ [x], unacked := p.unacked ++ [(p.seq, x)], seq := p.seq + 1 }

/-- What waits is sent, as far as the port may. -/
def Port.flush (p : Port) : Port := p.waiting.foldl (init := { p with waiting := [] }) Port.send

/-- The dies of a link (R30). -/
def linkDies (n : Nat) : Nat × Nat :=
  match n with | 0 => (0, 1) | 1 => (0, 2) | 2 => (0, 3) | 3 => (1, 2) | 4 => (1, 3) | _ => (2, 3)

/-- Are two dies joined by a link that is up, or one die? -/
def State.joined (s : State) (a b : Nat) : Bool := a = b || (s.die a).up.getLsbD b

/-- The third die of a detour (R32). -/
def State.detour (s : State) (a b : Nat) : Option Nat :=
  (List.range 4).find? fun c => c ≠ a && c ≠ b && (s.die a).up.getLsbD c && (s.die b).up.getLsbD c

/-- Does a link hold its traffic: it retrains or switches over (R32, R36)? -/
def State.linkBusy (s : State) (a b : Nat) : Bool :=
  s.links.any fun l => (l.2 = 1 || l.2 = 2) && (linkDies l.1 = (a, b) || linkDies l.1 = (b, a))

/-- Has a link gone down, its switchover over (R32)? -/
def State.linkGone (s : State) (a b : Nat) : Bool := s.links.any fun l => l.2 = 3 && (linkDies l.1 = (a, b) || linkDies l.1 = (b, a))

/-- Has a flit of a link between dies waited since an earlier cycle than `now`? -/
def PortOut.since (now : Nat) : PortOut → Bool
  | .access c => c < now
  | _ => true

/-- Does traffic of an earlier cycle wait at an end of the link of two dies until a flit is acknowledged (R36)? -/
def State.linkFull (s : State) (a b : Nat) : Bool :=
  ((s.die a).port (36 + b)).waiting.any (·.since s.cycle) || ((s.die b).port (36 + a)).waiting.any (·.since s.cycle)

/-- Is the traffic between two dies held, on their link or on a link of its detour (R32, R36)? -/
def State.trafficHeld (s : State) (a b : Nat) : Bool :=
  s.linkBusy a b || s.linkFull a b
    || (s.linkGone a b && (s.detour a b).any fun c => s.linkBusy a c || s.linkBusy c b || s.linkFull a c || s.linkFull c b)

/-- Traffic from one die to another goes out as a flit on their link (R30, R36), or while that is down on the links of its detour (R32). -/
def State.overLink (s : State) (a b : Nat) : State :=
  let hop (s : State) (a b : Nat) : State := s.onScalePort a (36 + b) fun p => p.send (.access s.cycle)
  if a = b ∨ 4 ≤ a ∨ 4 ≤ b then s
  else if s.joined a b then hop s a b
  else match s.detour a b with
    | some c => hop (hop s a c) c b
    | none => s

/-- An access of a die to a place goes over the link to the place's home die (R30); host memory lies behind die 0 (R48). -/
def State.crosses (s : State) (die loc : Nat) : State :=
  match spaceOf loc with
  | .hbm | .chip | .host => s.overLink die (homeDie loc)
  | _ => s

/-- Is the traffic of a die with the home die of a place held (R32, R36)? Host memory lies behind die 0 (R48). -/
def State.linkHeld (s : State) (die loc : Nat) : Bool :=
  match spaceOf loc with
  | .hbm | .chip | .host => s.trafficHeld die (homeDie loc)
  | _ => false

/-- Change the hart in focus. -/
def State.onCur (s : State) (f : Hart → Hart) : State := { s with cur := f s.cur }

/-- Change the memories. -/
def State.onStore (s : State) (f : Store → Store) : State := { s with store := f s.store }

/-- Change the graph engines. -/
def State.onEngines (s : State) (f : Engines → Engines) : State := { s with engines := f s.engines }

/-- Change the host port. -/
def State.onPort (s : State) (f : Port0 → Port0) : State := { s with port := f s.port }

/-- Take a fresh free value (log 3). -/
def State.fresh (s : State) : Nat × State := (Config.freeNat s.free, { s with free := s.free + 1 })

/-! ### The clock -/

/-- Windows of the throttle (R12): is cycle `c` allowed under throttle `n`? -/
def throttleAllows (n c : Nat) : Bool := c % 16 * n % 16 < n

/-- The throttle a cluster's issue follows (R12, R14): the value in force, limited to 4 by the clamp. -/
def Cluster.effective (x : Cluster) : Nat := if x.clamp then min x.force 4 else x.force

/-- Does the hart await load data, in its scalar side or in the convoy at the head of its queue (R183, R266)? -/
def Hart.awaitsData (x : Hart) : Bool :=
  let data (w : Option Stall) : Bool := w = some .loadData || w = some .hostData || w = some .attach
  data x.wait.stall || (x.vec.queue ≠ [] && data x.wait.vstall)

/-- The counter of R266 that rises for a hart in a cycle. -/
def Hart.countCycles (x : Hart) (n : Nat) : Hart :=
  if x.lease.state = .none ∨ x.occ = .empty ∨ x.occ = .preempted then x
  else
    let c := x.cyc
    let k : Word := BitVec.ofNat 64 n
    if x.lease.state = .wait ∨ x.lease.state = .suspended ∨ x.wait.move.isSome then { x with cyc := { c with lease := c.lease + k } }
    else if x.awaitsData then { x with cyc := { c with memory := c.memory + k } }
    else if x.vec.queue.length = Config.vqDepth then { x with cyc := { c with vector := c.vector + k } }
    else if x.vec.queue = [] then { x with cyc := { c with scalar := c.scalar + k } }
    else { x with cyc := { c with idle := c.idle + k } }

/-- The events of the cycle before are past (R156). -/
def Hart.forgetRecent (x : Hart) : Hart := { x with ev := { x.ev with recent := 0 } }

/-- `n` core cycles pass (R4, R50, R266): the cycle count, TIME (5 ns every 12 cycles), the slip counters, and a
throttle written before the last window boundary comes into force (R12). What the rounds of the cycle changed stands (R26). -/
def State.tick (s : State) (n : Nat) : State :=
  let ph := s.port.phase + n
  let s := { s with cycle := s.cycle + n, rounds := if n = 0 then s.rounds else [],
                    engines := { s.engines with parked := s.engines.parked.map Hart.forgetRecent }
                    port := { s.port with time := s.port.time + BitVec.ofNat 64 (5 * (ph / 12)), phase := ph % 12 } }
  let s := if s.cycle / 16 = (s.cycle - n) / 16 then s
    else { s with clusters := s.clusters.map fun c => { c with force := c.thr } }
  s.mapHarts fun x => (x.countCycles n).forgetRecent

end Sys2Proof.Machine
end

