-- ==== Sys2Proof/Machine/Access.lean ====
section
/-! DEFINITION. One access to memory: the windows (R167, R168), the walk (R171-R175), the guards at the memory (R56,
R58, R169), Poison, the accessed and dirty bits (R174), and what a write or read touches besides: audit ranges
(R65), release tags (R274), links (R359), host memory (R48). -/

namespace Sys2Proof

/-- The requester that stands for entry number `seq` of a hart's queues (R191), located at the hart's core. -/
def HartId.entryOf (h : HartId) (seq : Nat) : HartId := { h with slot := h.slot % 8 + 8 * (seq + 1) }

/-- The hart that a requester is, or whose queue entry it is. -/
def HartId.issuer (h : HartId) : HartId := { h with slot := h.slot % 8 }

/-- Is a requester of this package, not of another one (die 98) nor the host (die 99)? -/
def HartId.inPackage (h : HartId) : Bool := h.die < 4

end Sys2Proof

namespace Sys2Proof.Machine

/-- What comes of a piece of work: a value, a trap with its cause and value, or a stall. The state is the one after
it; a trap or stall leaves in it what the machine did on the way (a page asked for, a request sent). -/
inductive Res (α : Type) where
  | ok (a : α) (s : State)
  | trap (cause : Nat) (tval : Word) (s : State)
  | stall (why : Stall) (s : State)

/-- Go on with the value. -/
def Res.bind {α β : Type} (r : Res α) (f : α → State → Res β) : Res β :=
  match r with
  | .ok a s => f a s
  | .trap c t s => .trap c t s
  | .stall w s => .stall w s

/-- Who makes an access and how (R191): the core, the key slot, the level, the root, the name under which it waits,
the audit class of R65 (0 hart, 1 copy engine, 2 fabric, 3 host, 4 steward and graph engine, 5 none), the requester for R274,
whether every part of the cluster window is open to it (R168), whether the windows are closed to it, whether the
answers of the host stay until the whole instruction is done, whether it is the walk-ahead of a stream (R179). -/
structure Ctx where
  die : Nat
  clu : Nat
  core : Nat
  key : Nat
  user : Bool
  root : BitVec 56
  who : Nat
  cls : Nat
  req : HartId
  wide : Bool
  closed : Bool
  keep : Bool
  ahead : Bool := false

/-- The kinds of access (R173). -/
inductive Kind where
  | read | write | readWrite | fetch
  deriving DecidableEq, Repr

/-- An order (R202): acquire, release, the encoded scope. -/
structure Order where
  acq : Bool
  rel : Bool
  scp : Nat
  cas : Bool

/-- No order. -/
def Order.plain : Order := ⟨false, false, 0, false⟩

/-- The 2-bit ORD (R202) with its SCP. -/
def Order.of (ord scp : Nat) : Order := ⟨ord % 2 = 1, ord / 2 % 2 = 1, scp, false⟩

/-- The same order, for a CAS. -/
def Order.forCas (o : Order) : Order := { o with cas := true }

/-! ### Trace records (R270) and the scope checker (R274) -/

/-- The run a hart belongs to. -/
def State.runOf (s : State) (x : Hart) : Option Run :=
  match x.place.run with
  | none => none
  | some r => s.engines.runs.find? fun y => y.id = r

/-- Stage a record in a session that traces the graph: at most 64 wait (R271); a stopped session counts it lost
(R273); so does a full stage (log 18), but KIND 6 and 8 follow the writing of what is staged (R272). -/
def Trace.emit (t : Trace) (graph : BitVec 56) (r : TraceRec) : Trace :=
  if t.graph ≠ graph ∨ !(t.mask.getLsbD (r.kind - 1)) then t
  else if t.en then
    if t.staged.length < 64 ∨ r.kind = 6 ∨ r.kind = 8 then { t with staged := t.staged ++ [r] } else { t with loss := satAdd t.loss 1 }
  else if t.stop = 0 ∨ t.stop ≥ 4 then t
  else { t with loss := satAdd t.loss 1 }

/-- Emit a record of a hart to every session that traces its graph (R270). -/
def State.traceHart (s : State) (x : Hart) (kind nmem : Nat) (head value : Word) : State :=
  match s.runOf x with
  | none => s
  | some r =>
    let rec_ : TraceRec := ⟨kind, nmem, x.place.hix, r.gen, x.place.node, s.port.time, head, value, false⟩
    { s with dies := s.dies.map fun d => { d with traces := d.traces.map fun t => t.emit x.place.graph rec_ } }

/-- Is requester `q` within scope `scp` of `p` (R190)? Cluster 99 stands for an engine of the die, die 98 for a requester of
the package `clu`, die 99 for the host (log 42). -/
def within (scp : Nat) (p q : HartId) : Bool :=
  match scp with
  | 0 | 1 => p = q
  | 2 => p = q || (p.coreId = q.coreId && p.inPackage && p.clu ≠ 99)
  | 3 => p = q || (p.die = q.die && p.clu = q.clu && p.inPackage && p.clu ≠ 99)
  | 4 => p = q || (p.die = q.die && p.inPackage)
  | 5 => p = q || (p.inPackage && q.inPackage) || (p.die = 98 && q.die = 98 && p.clu = q.clu)
  | 6 => p = q || (p.die ≠ 99 && q.die ≠ 99)
  | _ => true

/-- A requester's code (R274); that of a requester of another package is a free value (log 42). -/
def requesterCode (q : HartId) : Nat :=
  if q.die = 99 then 6 * 2 ^ 13
  else if q.die = 98 then Config.remoteCode q.clu q.core % 2 ^ 13
  else if q.clu = 99 then q.die + 7 * 2 ^ 13
  else q.die + q.clu % 16 * 4 + q.core * 64 + q.slot % 8 * 1024

/-- The scope an ordered access has (R204): `win` 0 is the local window, 1 the cluster window. -/
def effScope (scp win loc : Nat) : Nat :=
  let w := match spaceOf loc with | .core => (if win = 0 then 2 else 3) | .chip => 4 | _ => 7
  max 1 (min scp w)

/-- The tag key of a location: its 64-byte line or block (R274). -/
def lineOf (loc : Nat) : Nat := loc / 64

/-- Do `n` bytes at `loc` touch a line? -/
def onLine (loc n line : Nat) : Bool := lineOf loc ≤ line && line ≤ lineOf (loc + n - 1)

/-- A write sets or clears the tags of its lines while the checker of their home die is on (R274). -/
def State.tagWrite (s : State) (cx : Ctx) (loc n scope : Nat) (rel : Bool) : State :=
  if (s.die (homeDie loc)).sckEn then
    s.onStore fun st =>
      let rest := st.tags.filter fun t => !onLine loc n t.1
      { st with tags := if rel then (lineOf loc, ⟨scope, cx.req, cx.who / 4⟩) :: rest else rest }
  else s

/-- The requesters of an event, as an acquire meets the tag of the line it reads (R274). -/
def State.acquireEvent (s : State) (cx : Ctx) (loc scope : Nat) : Option Nat :=
  if !(s.die (homeDie loc)).sckEn then none
  else match s.store.tags.find? fun t => t.1 = lineOf loc with
    | none => none
    | some (_, t) =>
      if within t.scope t.requester cx.req && within scope cx.req t.requester then none
      else some (requesterCode t.requester + requesterCode cx.req * 65536)

/-- The physical address of a location: its package stands in bits [55:44] (R39). The model's places of the core scratchpads
have none (log 4). -/
def State.physical (s : State) (loc : Nat) : Nat := if spaceOf loc = .core then loc % 2 ^ 44 else loc + s.pkgid.toNat * 2 ^ 44

/-- An event of the scope checker (R274). -/
def State.scopeEvent (s : State) (who : HartId) (loc v : Nat) : State :=
  let a := s.physical loc
  let s := s.onDie (homeDie loc) fun x =>
    { x with sckCount := satAdd x.sckCount 1, sckValid := true, sckAddr := if x.sckValid then x.sckAddr else BitVec.ofNat 56 a }
  s.traceHart (s.hart who.issuer) 7 0 (BitVec.ofNat 64 a) (BitVec.ofNat 64 v)

/-- An acquire is checked against the tag of the line it reads (R274). -/
def State.checkAcquire (s : State) (cx : Ctx) (loc scope : Nat) : State :=
  match s.acquireEvent cx loc scope with
  | none => s
  | some v => s.scopeEvent cx.req loc v

/-! ### Audit ranges (R65) -/

/-- Bytes of `[a, a+n)` in `[lo, hi)`. -/
def overlap (a n lo hi : Nat) : Nat := min (a + n) hi - max a lo

/-- One access counted by one range (R65). -/
def AuditRange.count (r : AuditRange) (cls : Nat) (write : Bool) (loc n : Nat) (time : Word) : AuditRange :=
  let k := overlap loc n r.base r.limit
  if !r.enable || k = 0 then r
  else
    let i := 2 * (cls % 5) + (if write then 1 else 0)
    { r with counts := r.counts.set (i % 10) (r.counts[i % 10]'(Nat.mod_lt _ (by decide)) + BitVec.ofNat 64 k) (Nat.mod_lt _ (by decide)),
             first := if r.counts.all (· == 0) then time else r.first
             last := time
             changed := true }

/-- An access at an L2 slice or a chip scratchpad is counted by every range (R65). -/
def State.audit (s : State) (cls : Nat) (write : Bool) (loc n : Nat) : State :=
  if cls ≥ 5 then s
  else match spaceOf loc with
  | .hbm | .chip => s.onStore fun st =>
      { st with ranges := st.ranges.map fun r => (r.1, r.2.count cls write loc n s.port.time) }
  | _ => s

/-! ### The walk (R171-R173) -/

/-- The index at a level (R171). -/
def walkIndex (level va : Nat) : Nat :=
  match level with
  | 3 => bitsOf va 56 43 | 2 => bitsOf va 42 30 | 1 => bitsOf va 29 21 | _ => bitsOf va 20 16

/-- The size and alignment of a table (R171). -/
def tableSize (level : Nat) : Nat := match level with | 3 => 0x20000 | 2 => 0x10000 | 1 => 0x1000 | _ => 0x100

/-- The size of the page a leaf maps (R171). -/
def pageSize (level : Nat) : Nat := match level with | 2 => 2 ^ 30 | 1 => 2 ^ 21 | _ => 2 ^ 16

/-- Does a zero bit of an entry hold 1 (R172)? -/
def badEntry (level e : Nat) : Bool :=
  if bitsOf e 1 1 = 1 then
    bitsOf e 15 10 ≠ 0 || (level = 1 && bitsOf e 20 16 ≠ 0) || (level = 2 && bitsOf e 29 16 ≠ 0)
  else bitsOf e 7 2 ≠ 0 || bitsOf e 63 56 ≠ 0

/-- What a walk finds: a fault, a migratable page that is not present, or a leaf, with where the entry lies. -/
inductive WalkEnd where
  | fault
  | steward (at_ entry : Nat)
  | leaf (at_ entry level : Nat)
  deriving DecidableEq, Repr

/-- The walk from a table of a level (R173). Tables lie in HBM frames of slot 0 (R171). Walks and the writes of A and D count in no class
of R65 (log 38). -/
def walkFrom (st : Store) (pkg va : Nat) : Nat → Nat → WalkEnd
  | level, t =>
    let a := t % 2 ^ 44 + 8 * walkIndex level va
    let e := st.bytes.readN a 8
    if t / 2 ^ 44 ≠ pkg ∨ spaceOf a ≠ .hbm ∨ st.ownerOf a ≠ 0 then .fault
    else if badEntry level e then .fault
    else if bitsOf e 0 0 = 0 then
      if bitsOf e 1 1 = 1 ∧ bitsOf e 8 8 = 1 ∧ level = 0 then .steward a e else .fault
    else if bitsOf e 1 1 = 1 then
      if level = 3 ∨ (bitsOf e 8 8 = 1 ∧ level ≠ 0) then .fault else .leaf a e level
    else match level with
      | 0 => .fault
      | l + 1 => if bitsOf e 55 8 * 256 % tableSize l ≠ 0 then .fault else walkFrom st pkg va l (bitsOf e 55 8 * 256)

/-- The walk of an address (R173). -/
def walk (s : State) (root : BitVec 56) (va : Nat) : WalkEnd := walkFrom s.store s.pkgid.toNat va 3 root.toNat

/-- The location a leaf gives an address (R173). -/
def leafLoc (entry level va : Nat) : Nat := bitsOf entry 43 16 * 2 ^ 16 + va % pageSize level

/-- The permission checks at a leaf (R173). -/
def leafAllows (pkg : Nat) (user : Bool) (key : Nat) (k : Kind) (entry level va : Nat) : Bool :=
  let loc := leafLoc entry level va
  (!user || bitsOf entry 5 5 = 1)
    && (k = .write || k = .fetch || bitsOf entry 2 2 = 1)
    && ((k ≠ .write && k ≠ .readWrite) || bitsOf entry 3 3 = 1)
    && (k ≠ .fetch || bitsOf entry 4 4 = 1)
    && (!user || bitsOf entry 63 56 = key)
    && spaceOf loc ≠ .reserved && bitsOf entry 55 44 = pkg
    && !(user && inContext loc)

/-- A leaf without its accessed and dirty bits. -/
def leafCore (e : Nat) : Nat := e - bitsOf e 7 6 * 64

/-- Where an access goes: the location, the key slot it is made under, the window (0 local, 1 cluster, 2 none). -/
structure Spot where
  loc : Nat
  key : Nat
  win : Nat
  deriving DecidableEq, Repr

/-- The name of the translation cache that a requester uses (R175): what the walk-ahead of the streams of a cluster holds stands apart. -/
def Ctx.holder (cx : Ctx) : Nat := cx.die * 100 + cx.clu + (if cx.ahead then 10000 else 0)

/-- Cached leaves of the page that differ from the one a fresh walk finds (R175). One that a stream's walk-ahead holds and that `allows`
finds faulting is fetched again (R179). -/
def staleLeaves (st : Store) (cx : Ctx) (va : Nat) (fresh : Option (Nat × Nat)) (allows : Nat → Nat → Bool) : List (Nat × Nat) :=
  let level (t : TlbEntry) : Nat := if t.size = 2 ^ 16 then 0 else if t.size = 2 ^ 21 then 1 else 2
  (st.tlb.filter fun t => (t.holder = cx.holder || (t.holder = ({ cx with ahead := true } : Ctx).holder && allows t.leaf (level t)))
      && t.ptroot = cx.root && t.page ≤ va && va < t.page + t.size
      && (match fresh with | some (e, _) => leafCore e ≠ t.leaf | none => true)).map fun t => (t.leaf, level t)

/-- Keep a leaf in the requester's translation cache (R175, log 7). -/
def Store.cacheLeaf (st : Store) (cx : Ctx) (va entry level : Nat) : Store :=
  let e : TlbEntry := ⟨cx.holder, cx.root, va / pageSize level * pageSize level, pageSize level, leafCore entry⟩
  if st.tlb.contains e then st else { st with tlb := e :: st.tlb }

/-! ### Writes -/

/-- Has the lock of R361 ended? Its holder has gone, has stopped before its VGLNK ran, or has no link left. -/
def State.lockOver (s : State) : Bool :=
  match s.store.lock with
  | none => true
  | some (who, lines, _) => match s.byUid (who / 4) with
    | none => true
    | some x =>
      if lines = [] then x.trap.vtrap.isSome || x.lease.state ≠ .held || x.lease.susp.isSome || x.vec.queue = []
      else x.links = []

/-- Does the hart hold the lock (R361)? -/
def State.holdsLock (s : State) (x : Hart) : Bool :=
  match s.store.lock with
  | some (who, _, _) => who = x.uid * 4 && !s.lockOver
  | none => false

/-- Do `n` bytes at `loc` touch a line that the lock of R361 holds against a requester? -/
def State.lockedFor (s : State) (who loc n : Nat) : Bool :=
  match s.store.lock with
  | some (w, lines, _) => w ≠ who && lines.any (onLine loc n) && !s.lockOver
  | none => false

/-- A write to a line that the lock of R361 holds waits, unless its holder makes it; so does one whose link holds its traffic (R32, R36). -/
def State.locked (s : State) (cx : Ctx) (loc : Nat) : Bool := s.lockedFor cx.who loc 1 || s.linkHeld cx.die loc

/-- A write clears the links on its lines (R359), but not those of a locked pair (R361); a VWAITV that watches a line
wakes (R363). -/
def State.dropLinks (s : State) (loc n : Nat) : State :=
  s.mapHarts fun x =>
    let x := if x.links = [] || s.holdsLock x then x else { x with links := x.links.filter fun l => !onLine loc n (lineOf l.loc) }
    if x.wait.watch.any fun w => onLine loc n (lineOf w.loc) then { x with wait := { x.wait with woken := true } } else x

/-- Keep what `n` bytes held before a write: a fetch may still return them (R161, R189). Whole words are kept. -/
def State.remember (s : State) (loc n : Nat) : State :=
  match spaceOf loc with
  | .hbm | .chip => s.onStore fun st =>
    let lo := loc / 8 * 8
    let hi := (loc + n + 7) / 8 * 8
    { st with serial := st.serial + 1
              stale := ⟨lo, hi, st.bytes.filter fun c => lo ≤ c.1 && c.1 < hi, st.ownerOf loc, st.serial, []⟩ :: st.stale }
  | _ => s

/-- The old words at a place that a fetch under a key slot may still return, among those that `ok` admits (R161, R189). -/
def State.oldWords (s : State) (p : Spot) (n : Nat) (ok : Stale → Bool) : List Nat :=
  (s.store.stale.filter fun e => e.lo ≤ p.loc && p.loc + n ≤ e.hi && (e.key = p.key || e.key = freeOwner) && ok e).map
    fun e => e.old.readN p.loc n

/-- A fetch returns the new word or an old one (R161, R189): a free choice (log 7). -/
def State.pickWord (s : State) (w : Nat) (olds : List Nat) : Nat × State :=
  match olds.filter (· ≠ w) with
  | [] => (w, s)
  | os =>
    let (n, s) := s.fresh
    ((os[n % (os.length + 1)]?).getD w, s)

/-- Does a core lie in the reach of a CFLUSH from `h`: 2 core, 3 cluster, 4 die, 5 package (R408)? -/
def flushReaches (scp : Nat) (h : HartId) (k : CoreId) : Bool :=
  match scp with
  | 2 => k = h.coreId
  | 3 => k.die = h.die && k.clu = h.clu
  | 4 => k.die = h.die
  | _ => true

/-- Has a flush that reaches the core covered the line of a place since the write (R189)? -/
def Stale.gone (e : Stale) (k : CoreId) (loc : Nat) : Bool := e.flushed.any fun f => f.2.2 = lineOf loc && flushReaches f.1 f.2.1 k

/-- The lines of HBM that are written under a key slot: each was written last under it (R62). Those of slot 0, which no release scrubs, are
not listed. -/
def Store.wroteLines (st : Store) (loc n key : Nat) : Store :=
  if spaceOf loc ≠ .hbm ∨ n = 0 then st
  else if key % 256 = 0 then { st with lines := st.lines.filter fun l => !onLine loc n l.1 }
  else
    let ls := (List.range ((loc + n - 1) / 64 + 1 - loc / 64)).map (loc / 64 + ·)
    { st with lines := ls.foldl (fun t l => Table.set 0 t l (key % 256)) st.lines }

/-- A write clears the tags of its lines, unless it is a release (R274). -/
def Store.untag (st : Store) (loc n : Nat) : Store := { st with tags := st.tags.filter fun t => !onLine loc n t.1 }

/-- A write of `n` bytes by the hardware itself, under a key slot: what stood there is kept, the bytes change, links fall (R359), tags go
(R274). -/
def State.overwrite (s : State) (loc n key : Nat) (f : Mem → Mem) : State :=
  ((s.remember loc n).onStore fun st => (({ st with bytes := f st.bytes } : Store).wroteLines loc n key).untag loc n).dropLinks loc n

/-- A write of one value by the hardware itself, under slot 0. -/
def State.rawWrite (s : State) (loc n v : Nat) : State := s.overwrite loc n 0 fun b => b.writeN loc n v

/-- The name of a request whose access has been abandoned, and of the hardware's own writes. -/
def nobody : Nat := 2 ^ 60

/-- The steward sets BUSY in a leaf (R183 step 1). -/
def State.markBusy (s : State) (leaf : Nat) : State := s.rawWrite leaf 8 (s.store.bytes.readN leaf 8 ||| 0x200)

/-- The access joins the service of a page, or starts one on its die (R183), once the leaf's line is not locked (R361); a failure of
the service is taken by each access that waited for it. -/
def State.callSteward (s : State) (cx : Ctx) (va : Word) (at_ entry : Nat) : Res Spot :=
  match s.store.failed.find? fun f => f.1 = cx.who && f.2.1 = at_ with
  | some f => .trap f.2.2 va (s.onStore fun st => { st with failed := st.failed.erase f })
  | none =>
    if s.dies.any fun d => d.steward.services.any fun x => x.leaf = at_ then
      .stall .loadData { s with dies := s.dies.map fun d =>
        { d with steward := { d.steward with services := d.steward.services.map fun x =>
            if x.leaf = at_ ∧ ¬ x.waiters.contains cx.who then { x with waiters := cx.who :: x.waiters } else x } } }
    else if s.locked cx at_ then .stall .loadData s
    else
      .stall .loadData ((s.onDie cx.die fun d =>
        { d with steward := { d.steward with
            services := d.steward.services ++ [⟨at_, entry, cx.root, va.toNat, [cx.who], false⟩] } }).markBusy at_)

/-- The translation of a canonical address (R173), with the choice of R175 among cached leaves and the one in memory. -/
def translate (s : State) (cx : Ctx) (k : Kind) (va : Word) : Res Spot :=
  let w := walk s cx.root va.toNat
  let fresh := match w with | .leaf _ e l => some (e, l) | _ => none
  let use (e l : Nat) (s : State) : Res Spot :=
    if leafAllows s.pkgid.toNat cx.user cx.key k e l va.toNat then
      .ok ⟨leafLoc e l va.toNat, bitsOf e 63 56, 2⟩ (s.onStore fun st => st.cacheLeaf cx va.toNat e l)
    else .trap 0x06 va s
  let now (s : State) : Res Spot := match w with
    | .fault => .trap 0x05 va s
    | .steward a e => s.callSteward cx va a e
    | .leaf _ e l => use e l s
  match staleLeaves s.store cx va.toNat fresh fun e l => leafAllows s.pkgid.toNat cx.user cx.key k e l va.toNat with
  | [] => now s
  | olds =>
    let (n, s) := s.fresh
    match olds[n % (olds.length + 1)]? with
    | some (e, l) => use e l s
    | none => now s

/-- The scratchpad window (R167, R168). -/
def windowSpot (cx : Ctx) (va : Word) : Option Spot :=
  let o := va.toNat % 0x1000000
  if cx.closed then none
  else if o < 0x40000 then some ⟨scratchLoc cx.die cx.clu cx.core o, cx.key, 0⟩
  else if 0x400000 ≤ o ∧ o < 0x800000 ∧ cx.clu ≠ Config.mgmtCluster then
    let k := (o - 0x400000) / 0x40000
    if k = cx.core ∨ cx.wide then some ⟨scratchLoc cx.die cx.clu k (o % 0x40000), cx.key, 1⟩ else none
  else none

/-- Is the address in the scratchpad window (R167)? -/
def inWindow (va : Word) : Bool := bitsOf va.toNat 63 24 = 0xFF00000000

/-- Is the address canonical (R167)? -/
def canonical (va : Word) : Bool := bitsOf va.toNat 63 56 = 0 || bitsOf va.toNat 63 56 = 0xFF

/-- Where an access goes (checks 3 and 4 of R314). -/
def resolve (s : State) (cx : Ctx) (k : Kind) (va : Word) : Res Spot :=
  if inWindow va then
    match (if k = .fetch then none else windowSpot cx va) with
    | some p => .ok p s
    | none => .trap 0x06 va s
  else if !canonical va then .trap 0x05 va s
  else translate s cx k va

/-- Where A, and D for a write, must still be set, and the entry with them: in the leaf that a fresh walk finds, if it maps the
address to this location (R174). -/
def State.adWrite (s : State) (root : BitVec 56) (va : Word) (p : Spot) (write : Bool) : Option (Nat × Nat) :=
  if p.win ≠ 2 then none
  else match walk s root va.toNat with
    | .leaf a e l =>
      let new := e ||| (if write then 0xC0 else 0x40)
      if leafLoc e l va.toNat = p.loc ∧ bitsOf e 55 44 = s.pkgid.toNat ∧ new ≠ e then some (a, new) else none
    | _ => none

/-- Set A, and D for a write, where they are not set (R174). -/
def State.setAD (s : State) (root : BitVec 56) (va : Word) (p : Spot) (write : Bool) : State :=
  match s.adWrite root va p write with
  | some (a, e) => s.rawWrite a 8 e
  | none => s

/-- The OR of R174 waits for a locked line (R361). -/
def State.adLocked (s : State) (cx : Ctx) (va : Word) (p : Spot) (write : Bool) : Bool :=
  (s.adWrite cx.root va p write).any fun e => s.locked cx e.1

/-! ### At the memory -/

/-- Check 5 of R314: the guard of R56, R58 and R169. A load from host memory ignores the key slot, a store does not (R56, R173). -/
def State.ownerCheck (s : State) (p : Spot) (write : Bool) : Option Nat :=
  match spaceOf p.loc with
  | .host => if write && !s.store.keyLoaded p.key then some 0x06 else none
  | .reserved => some 0x06
  | _ => if s.store.guard p.key p.loc write = .refused then some 0x06 else none

/-- Check 6 of R314: a closed host port (R48), a line with a lasting defect (R27); a read of a free frame does not reach HBM (R58). -/
def State.poisonCheck (s : State) (p : Spot) (n : Nat) (write : Bool) : Option Nat :=
  match spaceOf p.loc with
  | .host => if s.port.hwbase.getLsbD 0 then none else some 0x0E
  | _ => if (write || s.store.ownerOf p.loc ≠ freeOwner) && s.store.poisoned p.loc n then some 0x0E else none

/-- Checks 5 and 6 of R314 for `n` bytes. -/
def State.check (s : State) (p : Spot) (n : Nat) (write : Bool) : Option Nat :=
  match s.ownerCheck p write with
  | some c => some c
  | none => s.poisonCheck p n write

/-- Undo a piece of work that must be done again, but for the pages, the host data and the lock it asked for and the
translations it cached. -/
def State.keepRequests (s0 s : State) : State :=
  let old (v : Service) : Bool := s0.dies.any fun d => d.steward.services.any fun x => x.leaf = v.leaf
  let fresh := (s.dies.toList.flatMap (·.steward.services)).filter fun v => !old v
  let t := fresh.foldl (init := s0) fun t v => t.markBusy v.leaf
  { t with dies := s0.dies.zipWith (fun d e => { d with steward := e.steward }) s.dies
           port := { s0.port with requests := s.port.requests, answers := s.port.answers }
           store := { t.store with tlb := s.store.tlb, lock := s.store.lock, lockQueue := s.store.lockQueue }
           free := s.free }

/-- The bus address of a place in host memory (R48). -/
def Port0.bus (q : Port0) (loc : Nat) : Nat :=
  (bitsOf q.hwbase.toNat 63 12 * 4096 + (loc - 0x80000000000)) % 2 ^ 64

/-- Read host memory (R48): the request goes out and the access waits for its answer, which comes over the link to die 0 (R30). -/
def State.hostRead (s : State) (cx : Ctx) (va : Word) (p : Spot) (n : Nat) : Res Nat :=
  match s.port.answers.find? fun x => x.who = cx.who && x.loc = p.loc && x.n = n with
  | some x =>
    let s := if cx.keep then s else s.onPort fun q => { q with answers := q.answers.erase x }
    match x.value with
    | some v => .ok v (s.crosses cx.die p.loc)
    | none => .trap 0x0E va s
  | none =>
    if s.port.requests.any fun x => x.who = cx.who && x.loc = p.loc && x.n = n then .stall .hostData s
    else .stall .hostData (s.onPort fun q => { q with requests := q.requests ++ [⟨cx.who, p.loc, q.bus p.loc, n, s.cycle⟩] })

/-- Forget the answers of the host that an instruction has used. -/
def State.clearAnswers (s : State) (who : Nat) : State :=
  s.onPort fun q => { q with answers := q.answers.filter fun x => x.who ≠ who }

/-- The bytes of the device at a spot; a free frame or block reads as zeros (R58). -/
def State.peek (s : State) (p : Spot) (n : Nat) : Nat :=
  if s.store.ownerOf p.loc = freeOwner then 0 else s.store.bytes.readN p.loc n

/-- Perform a read: count it (R65), check an acquire (R274). -/
def State.performRead (s : State) (cx : Ctx) (p : Spot) (n : Nat) (o : Order) : Nat × State :=
  let v := s.peek p n
  let s := (s.audit cx.cls false p.loc n).crosses cx.die p.loc
  (v, if o.acq then s.checkAcquire cx p.loc (effScope o.scp p.win p.loc) else s)

/-! ### Sync words (R180): where arrivals may reach -/

/-- The context of the accesses of a hart (R167, R173, R191). -/
def Hart.cx (x : Hart) : Ctx :=
  { die := x.id.die, clu := x.id.clu, core := x.id.core, key := x.base.key.toNat, user := x.base.level = .user,
    root := x.base.ptroot, who := x.uid * 4, cls := 0, req := x.id, wide := false, closed := false, keep := false }

/-- The context of the accesses of entry number `seq` of a queue (R168, R191): `n` is 1 for CQ0, 2 for CQ1, 3 for XQ. -/
def Hart.queueCx (x : Hart) (n seq : Nat) (level : Level) : Ctx :=
  { x.cx with user := level = .user, who := x.uid * 4 + n, cls := if n = 3 then 2 else 1, req := x.id.entryOf seq, wide := true, keep := true }

/-- The name under which a core reads a handler's entry. -/
def entryReader (k : CoreId) : Nat := 2 ^ 40 + (k.die * 17 + k.clu) * 16 + k.core

/-- The context in which the entry of a handler is read: the sender's address space, at the target core (R152). -/
def Message.entryCx (m : Message) (k : CoreId) : Ctx :=
  { die := k.die, clu := k.clu, core := k.core, key := m.kslot.toNat, user := !m.sup, root := m.ptroot, who := entryReader k, cls := 0,
    req := k.messageSlot, wide := false, closed := false, keep := false }

/-- Where an address leads now, if anywhere. -/
def State.placeOf (s : State) (cx : Ctx) (va : Word) : Option Nat :=
  if inWindow va then (windowSpot cx va).map (·.loc)
  else match walk s cx.root va.toNat with
    | .leaf _ e l => some (leafLoc e l va.toNat)
    | _ => none

/-- The sync words of a hart's copy entries and of the handler that runs in it (R180, R181). -/
def State.hartArrivals (s : State) (x : Hart) : List Nat :=
  let of (n : Nat) (es : List CopyEntry) : List Nat :=
    es.filterMap fun e => if e.sync = 0 then none else s.placeOf (x.queueCx n e.seq e.level) e.sync
  of 1 x.qs.cq0 ++ of 2 x.qs.cq1 ++ (match x.handler with
    | some h => if h.msg.hnd = 7 then (s.placeOf x.cx h.msg.p[0]).toList else []
    | none => [])

/-- The sync words of the messages for handler 7 at a core (R154). -/
def State.coreArrivals (s : State) (k : Core) : List Nat :=
  (k.wire ++ k.queue).filterMap fun (m : Message) => if m.hnd = 7 then s.placeOf (m.entryCx k.id) m.p[0] else none

/-- The sync words that arrivals may reach (R180). -/
def State.arrivals (s : State) : List Nat := s.harts.flatMap s.hartArrivals ++ s.cores.flatMap s.coreArrivals

/-- The sync words that arrivals may reach among those that `n` bytes at `loc` touch. -/
def State.syncHit (s : State) (loc n : Nat) : List Nat :=
  match spaceOf loc with
  | .core | .chip => ((s.arrivals.map (· / 16)).filter fun w => loc / 16 ≤ w && w ≤ (loc + n - 1) / 16).eraseDups
  | _ => []

/-- Some sync words become unpredictable (R180, R317): free values. -/
def State.spoil (s : State) : List Nat → State
  | [] => s
  | w :: ws =>
    let (z, s) := s.fresh
    (s.onStore fun st => { st with bytes := st.bytes.writeN (w * 16) 16 z }).spoil ws

/-- Post a write to host memory (R48), unless the port is closed to the device. -/
def State.post (s : State) (x : Sent) : State :=
  if s.port.hwbase.getLsbD 0 then s.onPort fun q => { q with sent := q.sent ++ [x] } else s

/-- Does a byte of a graph belong to a field that the engine writes (R74, R75)? -/
def engineField (off : Nat) : Bool :=
  if off < 256 then off / 2 = 5 || off = 16 || (20 ≤ off && off < 48) || off / 4 = 16
  else
    let k := (off - 256) % 128
    k = 2 || k / 2 = 2 || k = 37 || k = 43 || k / 8 = 9 || k / 8 = 11

/-- The bytes of engine fields of attached graphs among `n` bytes at `loc` (R74, R75). -/
def State.engineHit (s : State) (loc n : Nat) : List Nat :=
  s.engines.attached.flatMap fun a =>
    let base := a.header.toNat % 2 ^ 44
    if loc + n ≤ base ∨ base + 256 + 128 * a.ncount ≤ loc then []
    else (List.range n).filterMap fun i =>
      if base ≤ loc + i ∧ loc + i < base + 256 + 128 * a.ncount ∧ engineField (loc + i - base) then some (loc + i) else none

/-- Where a valid entry names the table at a package offset (R172). -/
def State.namers (s : State) (t : Nat) : List Nat :=
  (s.store.bytes.filter fun c => c.1 % 8 = 0 && c.2.toNat % 4 = 1 &&
    bitsOf (s.store.bytes.readN c.1 8) 55 8 * 256 = s.pkgid.toNat * 2 ^ 44 + t).map (·.1)

/-- Is a word a level 0 entry of the page tables of a hart or of an attached graph (R171)? -/
def State.isLeaf (s : State) (a : Nat) : Bool :=
  (s.namers (a / 0x100 * 0x100)).any fun b => (s.namers (b / 0x1000 * 0x1000)).any fun c => (s.namers (c / 0x10000 * 0x10000)).any fun d =>
    let root := s.pkgid.toNat * 2 ^ 44 + d / 0x20000 * 0x20000
    ((s.harts ++ s.engines.parked).any fun x => x.base.ptroot.toNat = root) || s.engines.attached.any fun g => g.ptroot.toNat = root

/-- The bytes of the leaves with MIG = 1 that a write of software changes against the rule of R183, and those of their pages: only a CAS from a
value whose BUSY is 0 may change one. -/
def State.leafHit (s : State) (p : Spot) (n : Nat) (cas : Bool) : List Nat :=
  ((List.range ((p.loc + n + 7) / 8 - p.loc / 8)).map fun i => 8 * (p.loc / 8 + i)).flatMap fun a =>
    let e := s.store.bytes.readN a 8
    if p.win = 2 && bitsOf e 1 1 = 1 && bitsOf e 8 8 = 1 && !(cas && p.loc = a && n = 8 && bitsOf e 9 9 = 0) && s.isLeaf a then
      let page := bitsOf e 43 16 * 0x10000
      (List.range 8).map (a + ·) ++ (if spaceOf page = .hbm then (List.range 0x10000).map (page + ·) else [])
    else []

/-- The bytes that a write of software to `n` bytes leaves unpredictable (R74, R183). -/
def State.wild (s : State) (p : Spot) (n : Nat) (cas : Bool) : List Nat := s.engineHit p.loc n ++ s.leafHit p n cas

/-- Some bytes become unpredictable: free values. -/
def State.blur (s : State) : List Nat → State
  | [] => s
  | a :: as =>
    let (z, s) := s.fresh
    (s.onStore fun st => { st with bytes := st.bytes.writeN a 1 z }).blur as

/-- Perform a write of the device's memory: the owner is claimed (R58, R169), the bytes change, the access is counted (R65),
links are cleared (R359), the tags of its lines follow (R274). -/
def State.performHere (s : State) (cx : Ctx) (p : Spot) (n v : Nat) (o : Order) : State :=
  let s := (s.remember p.loc n).onStore fun st =>
    { st with bytes := st.bytes.writeN p.loc n v,
              owners := if st.ownerOf p.loc = freeOwner then Table.set freeOwner st.owners (ownerKey p.loc) p.key else st.owners }
  let s := s.onStore fun st => st.wroteLines p.loc n p.key
  let s := ((s.audit cx.cls true p.loc n).dropLinks p.loc n).crosses cx.die p.loc
  s.tagWrite cx p.loc n (effScope o.scp p.win p.loc) o.rel

/-- Perform a write of the device's memory; one to a sync word that arrivals may reach leaves its bytes unpredictable (R180). -/
def State.performOwn (s : State) (cx : Ctx) (p : Spot) (n v : Nat) (o : Order) : State :=
  (s.performHere cx p n v o).spoil (s.syncHit p.loc n)

/-- Perform a write. One to host memory is posted (R48); one to an engine field of an attached graph, which only its engine writes, leaves its bytes
unpredictable (R74, R75): the engine's own go by `performOwn`; so does one to a leaf with MIG = 1 against the rule of R183. -/
def State.performWrite (s : State) (cx : Ctx) (p : Spot) (n v : Nat) (o : Order) : State :=
  match spaceOf p.loc with
  | .host => (s.post (.write (s.port.bus p.loc) n (v % 2 ^ (8 * n)))).crosses cx.die p.loc
  | _ => (s.performOwn cx p n v o).blur (s.wild p n o.cas)

/-- A new byte with one nibble replaced (R192). -/
def setNibble (old v : Nat) (high : Bool) : Nat := if high then old % 16 + v % 16 * 16 else old / 16 * 16 + v % 16

/-- Perform the write of one nibble of a byte, the other unchanged (R192). -/
def State.performNibble (s : State) (cx : Ctx) (p : Spot) (v : Nat) (high : Bool) (o : Order) : State :=
  match spaceOf p.loc with
  | .host => (s.post (.nibble (s.port.bus p.loc) high (v % 16))).crosses cx.die p.loc
  | _ => s.performWrite cx p 1 (setNibble (s.peek p 1) v high) o

/-- Must a read wait: for the line of its leaf (R361), or for a link that holds its traffic (R32, R36)? -/
def State.readHeld (s : State) (cx : Ctx) (va : Word) (p : Spot) : Bool := s.adLocked cx va p false || s.linkHeld cx.die p.loc

/-- A read at a spot that has been found: checks 5 and 6, then A, then the access. -/
def readSpot (s : State) (cx : Ctx) (va : Word) (p : Spot) (n : Nat) (o : Order) : Res Nat :=
  match s.check p n false with
  | some c => .trap c va s
  | none =>
    if s.readHeld cx va p then .stall .loadData s
    else if spaceOf p.loc = .host then
      (s.hostRead cx va p n).bind fun v s => .ok v (s.setAD cx.root va p false)
    else
      let (v, s) := (s.setAD cx.root va p false).performRead cx p n o
      .ok v s

/-- Does a write at a spot wait for the lock of R361, at its own line or at its leaf's? -/
def State.writeLocked (s : State) (cx : Ctx) (va : Word) (p : Spot) : Bool := s.locked cx p.loc || s.adLocked cx va p true

/-- A write at a spot that has been found: checks 5 and 6, the lock, A and D, then `put`. -/
def writeSpotBy (s : State) (cx : Ctx) (va : Word) (p : Spot) (n : Nat) (put : State → State) : Res Unit :=
  match s.check p n true with
  | some c => .trap c va s
  | none => if s.writeLocked cx va p then .stall .lock s else .ok () (put (s.setAD cx.root va p true))

/-- A write of `n` bytes at a spot that has been found. -/
def writeSpot (s : State) (cx : Ctx) (va : Word) (p : Spot) (n v : Nat) (o : Order) : Res Unit :=
  writeSpotBy s cx va p n fun s => s.performWrite cx p n v o

/-- A load of `n` bytes (R313, R314 from check 3 on). -/
def readMem (s : State) (cx : Ctx) (va : Word) (n : Nat) (o : Order) : Res Nat :=
  (resolve s cx .read va).bind fun p s => readSpot s cx va p n o

/-- A store of `n` bytes (R313). -/
def writeMem (s : State) (cx : Ctx) (va : Word) (n v : Nat) (o : Order) : Res Unit :=
  (resolve s cx .write va).bind fun p s => writeSpot s cx va p n v o

/-- A read-modify-write (R193, R315, R316): `f` gives the new value, or none where nothing is written. Host memory
takes none (R317). -/
def updateMem (s : State) (cx : Ctx) (va : Word) (n : Nat) (o : Order) (f : Nat → Option Nat) : Res Nat :=
  (resolve s cx .readWrite va).bind fun p s =>
    if spaceOf p.loc = .host then .trap 0x06 va s
    else match s.check p n true with
    | some c => .trap c va s
    | none =>
      if s.writeLocked cx va p then .stall .lock s
      else
        let (old, s) := (s.setAD cx.root va p true).performRead cx p n { o with rel := false }
        match f old with
        | some new => .ok old (s.performWrite cx p n new o)
        | none => .ok old s

end Sys2Proof.Machine
end

