-- ==== Sys2Proof/Machine/Trace.lean ====
section
/-! DEFINITION. Trace sessions (R270-R273): the writing of staged records, a new generation, the stops. -/

namespace Sys2Proof.Machine

/-- The requester that stands for a die's engine (R191). -/
def engineId (die : Nat) : HartId := ⟨die, 99, 0, 0⟩

/-- The context of an engine's accesses in a graph's address space (R73, R81, R168). -/
def engineCtx (die key : Nat) (root : BitVec 56) : Ctx :=
  { die := die, clu := 99, core := 0, key := key, user := key ≠ 0, root := root, who := die, cls := 4, req := engineId die,
    wide := false, closed := true, keep := true }

/-- Session `n` of a die. -/
def State.trace (s : State) (d n : Nat) : Trace := (s.die d).traces[n % 4]'(Nat.mod_lt _ (by decide))

/-- Change session `n` of a die. -/
def State.onTrace (s : State) (d n : Nat) (f : Trace → Trace) : State :=
  s.onDie d fun x => { x with traces := x.traces.set (n % 4) (f (x.traces[n % 4]'(Nat.mod_lt _ (by decide)))) (Nat.mod_lt _ (by decide)) }

/-- The context of a session's writes: the graph's address space and key slot, counted by no audit range (R271). -/
def Trace.cx (t : Trace) (d : Nat) : Ctx := { engineCtx d t.key.toNat t.ptroot with cls := 5 }

/-- The address of byte `o` of a session's buffer (R269). -/
def Trace.at_ (t : Trace) (o : Nat) : Word := BitVec.ofNat 64 (t.va.toNat * 65536 + o)

/-- Records that the buffer holds (R270). -/
def Trace.capacity (t : Trace) : Nat := (2 ^ t.log2.toNat * 65536 - 64) / 32

/-- The four words of a record (R270). -/
def TraceRec.words (r : TraceRec) : List Nat :=
  [r.kind + r.nmem * 2 ^ 8 + (if r.tail then 2 ^ 11 else 0) + r.hix.toNat * 2 ^ 12 + r.gen.toNat * 2 ^ 32 + r.node.toNat * 2 ^ 48,
   r.time.toNat, r.head.toNat, r.value.toNat]

/-- The eight words of the header (R270). -/
def Trace.header (t : Trace) (start : Word) : List Nat :=
  [0x5243545A + t.stop.toNat * 2 ^ 32, t.wpos, t.loss.toNat, start.toNat, 0, 0, 0, 0]

/-- Write words at rising addresses; a refusal is reported. -/
def traceWords (s : State) (cx : Ctx) (t : Trace) (o : Nat) : List Nat → Res Unit
  | [] => .ok () s
  | w :: ws => (writeMem s cx (t.at_ o) 8 w .plain).bind fun _ s => traceWords s cx t (o + 8) ws

/-- STOP and LOSS of a stopped session are written to the header, if its page still translates (R273); they wait where the write must. -/
def State.closeTrace (s : State) (d n : Nat) : State :=
  let t := s.trace d n
  let r := (writeMem s (t.cx d) (t.at_ 4) 4 t.stop.toNat .plain).bind fun _ s => writeMem s (t.cx d) (t.at_ 16) 8 t.loss.toNat .plain
  match r with
  | .ok _ s' => s'.onTrace d n fun t => { t with closing := false }
  | .trap _ _ _ => s.onTrace d n fun t => { t with closing := false }
  | .stall _ s' => (s.keepRequests s').onTrace d n fun t => { t with closing := true }

/-- A session stops (R273): EN 0, the staged records discarded and counted; then the header. -/
def State.stopTrace (s : State) (d n : Nat) (code : BitVec 3) : State :=
  (s.onTrace d n fun t => { t with en := false, stop := code, loss := satAdd t.loss t.staged.length, staged := [], opening := none }).closeTrace d n

/-- Write staged records in order until the buffer is full; how many were written, and whether one was refused. -/
def writeRecords (s : State) (cx : Ctx) (t : Trace) : Nat → List TraceRec → Res (Nat × Bool)
  | w, [] => .ok (w, false) s
  | w, r :: rs =>
    if w ≥ t.capacity then .ok (w, false) s
    else match traceWords s cx t (64 + 32 * w) r.words with
      | .ok _ s => writeRecords s cx t (w + 1) rs
      | .trap _ _ s => .ok (w, true) s
      | .stall x s => .stall x s

/-- Write the header of a session that has just started (R269, R270). -/
def State.writeHeader (s : State) (d n : Nat) : Res Unit :=
  let t := s.trace d n
  match t.opening with
  | none => .ok () s
  | some time => (traceWords s (t.cx d) t 0 (t.header time)).bind fun _ s => .ok () (s.onTrace d n fun t => { t with opening := none })

/-- Write the header if it waits, the staged records, then WPOS with release at PACKAGE scope (R271); whether a write was refused. -/
def State.writeStaged (s : State) (d n : Nat) : Res Bool :=
  match s.writeHeader d n with
  | .trap _ _ s => .ok true s
  | .stall w s => .stall w s
  | .ok _ s =>
    let t := s.trace d n
    if t.staged = [] then .ok false s
    else (writeRecords s (t.cx d) t t.wpos t.staged).bind fun r s =>
      let s := s.onTrace d n fun t => { t with wpos := r.1, staged := t.staged.drop (r.1 - t.wpos) }
      if r.2 then .ok true s
      else match writeMem s (t.cx d) (t.at_ 8) 8 r.1 ⟨false, true, 5, false⟩ with
        | .trap _ _ s => .ok true s
        | .stall w s => .stall w s
        | .ok _ s => .ok false s

/-- One batch (R271); the session stops when the buffer is full or a write is refused (R273). -/
def State.writeBatch (s : State) (d n : Nat) : Res Unit :=
  if !(s.trace d n).en ∨ (s.trace d n).staged = [] then .ok () s
  else (s.writeStaged d n).bind fun refused s =>
    if refused then .ok () (s.stopTrace d n 3)
    else .ok () (if (s.trace d n).wpos ≥ (s.trace d n).capacity then s.stopTrace d n 1 else s)

/-- A session's end with its graph (R272): the staged records are written, then a KIND 8 record; STOP is 4. -/
def State.endTrace (s : State) (d n : Nat) : Res Unit :=
  (s.writeStaged d n).bind fun refused s =>
    if refused then .ok () (s.stopTrace d n 3)
    else
      let ending := s.onTrace d n fun t => t.emit t.graph ⟨8, 0, 0, t.gen, 0, s.port.time, 0, 4, false⟩
      match ending.writeStaged d n with
      | .ok refused s => .ok () (s.stopTrace d n (if refused then 3 else 4))
      | .trap _ _ s => .ok () (s.stopTrace d n 3)
      | .stall w _ => .stall w s

/-- Session `n` of die `d` meets a new generation of its graph (R272): the staged records get TAIL, a KIND 6 record follows, and what is
staged is written; one that has stopped counts the record (R273). -/
def State.traceGen (s : State) (old new d n : Nat) : State :=
  let mark : TraceRec := ⟨6, 0, 0, BitVec.ofNat 16 new, 0, s.port.time, 0, BitVec.ofNat 64 (old + new * 65536), false⟩
  let s := s.onTrace d n fun t =>
    let t := if t.en then { t with staged := t.staged.map fun r => { r with tail := true }, gen := BitVec.ofNat 16 new } else t
    t.emit t.graph mark
  match s.writeBatch d n with | .ok _ s | .trap _ _ s | .stall _ s => s

/-- Apply something to every session of the package that satisfies a test. -/
def State.eachTrace (s : State) (p : Trace → Bool) (f : State → Nat → Nat → State) : State :=
  (List.range 16).foldl (init := s) fun s i => if p (s.trace (i / 4) (i % 4)) then f s (i / 4) (i % 4) else s

/-- A TLBI stops the sessions with a page of the buffer that it covers (R273). -/
def State.tracesRemapped (s : State) (covers : BitVec 56 → Nat → Bool) : State :=
  s.eachTrace (fun t => t.en && (List.range (2 ^ t.log2.toNat)).any fun i => covers t.ptroot (t.at_ (i * 65536)).toNat)
    fun s d n => s.stopTrace d n 2

/-- The sessions of a graph end with it (R272). -/
def endTraces (s : State) (g : BitVec 56) : List Nat → Res Unit
  | [] => .ok () s
  | i :: is =>
    (if (s.trace (i / 4) (i % 4)).en ∧ (s.trace (i / 4) (i % 4)).graph = g then s.endTrace (i / 4) (i % 4) else .ok () s).bind
      fun _ s => endTraces s g is

end Sys2Proof.Machine
end

