-- ==== Sys2Proof/Machine/Graph.lean ====
section
/-! DEFINITION. What the graph engines do to the records in memory (R73-R91, R99-R116): reading and writing header
and node fields, token steps, ready queues, failures, cancel requests, cancellation walks, the end of a run. The
events that drive them stand in `Machine/GraphEvents.lean`. -/

namespace Sys2Proof.Machine

/-- The context of a graph's home engine. -/
def Attached.cx (a : Attached) : Ctx := engineCtx a.home a.slot.toNat a.ptroot

/-- The package offset of the graph. -/
def Attached.base (a : Attached) : Nat := a.header.toNat % 2 ^ 44

/-- The spot of a byte of the graph's header and records (R73). -/
def Attached.spot (a : Attached) (off : Nat) : Spot := ⟨a.base + off, a.slot.toNat, 2⟩

/-- Read `n` bytes of the graph's memory; a refused read gives 0 (log 20). -/
def State.gmem (s : State) (a : Attached) (off n : Nat) : Nat :=
  match s.check (a.spot off) n false with | none => s.peek (a.spot off) n | some _ => 0

/-- Read `n` bytes at an offset of the graph: of a field of the engine the engine's own copy, for a store to it in memory leaves
the engine's decisions unaffected (R74, R75). -/
def State.gread (s : State) (a : Attached) (off n : Nat) : Nat :=
  if engineField off then s.engines.own.readN (a.base + off) n else s.gmem a off n

/-- Write the engine's own copy. -/
def State.keepOwn (s : State) (a : Attached) (off n v : Nat) : State :=
  s.onEngines fun e => { e with own := e.own.writeN (a.base + off) n v }

/-- Write `n` bytes at an offset of the graph, in the engine's own copy and in memory; a write that memory refuses is dropped there
(log 20). A store of anyone else to a field of the engine leaves free values in memory (R74), until the engine writes the field again
(DESIGN CHOICE, log 41). -/
def State.gwrite (s : State) (a : Attached) (off n v : Nat) : State :=
  let s := s.keepOwn a off n v
  match s.check (a.spot off) n true with
  | none => match spaceOf (a.base + off) with
    | .host => s.performWrite a.cx (a.spot off) n v .plain
    | _ => s.performOwn a.cx (a.spot off) n v .plain
  | some _ => s

/-- The engine's read of `n` bytes of the graph in memory counts as record traffic, unless it is refused (R65). -/
def State.gaudit (s : State) (a : Attached) (off n : Nat) : State :=
  if (s.check (a.spot off) n false).isNone then s.audit 4 false (a.base + off) n else s

/-- Must the engine's accesses of a graph wait: for the lock of R361, or for a link between its die and a frame of the graph (R32,
R36)? -/
def State.graphLocked (s : State) (a : Attached) : Bool :=
  let n := 256 + 128 * a.ncount
  s.lockedFor a.home a.base n
    || (List.range ((a.base + n - 1) / 65536 + 1 - a.base / 65536)).any fun i => s.linkHeld a.home ((a.base / 65536 + i) * 65536)

/-- The offset of a field of node `i` (R73). -/
def nodeOff (i off : Nat) : Nat := 256 + 128 * i + off

/-- The attached graph of a header. -/
def State.attachedAt (s : State) (g : BitVec 56) : Option Attached := s.engines.attached.find? fun a => a.header = g

/-- The current generation (R74). -/
def State.gen (s : State) (a : Attached) : Nat := s.gread a 8 2

/-- The state of a node in the current generation (R87, R88). -/
def State.nodeState (s : State) (a : Attached) (i : Nat) : Nat :=
  if s.gread a (nodeOff i 4) 2 ≠ s.gen a then 0 else s.gread a (nodeOff i 2) 1

/-- Set a node's STATE. -/
def State.setNode (s : State) (a : Attached) (i st : Nat) : State := s.gwrite a (nodeOff i 2) 1 st

/-- Set a node's LGEN to the current generation. -/
def State.setLgen (s : State) (a : Attached) (i : Nat) : State := s.gwrite a (nodeOff i 4) 2 (s.gen a)

/-- Add 1 to a 4-byte header counter. -/
def State.bump (s : State) (a : Attached) (off : Nat) : State := s.gwrite a off 4 (s.gread a off 4 + 1)

/-- Change the record of an attached graph. -/
def State.onAttached (s : State) (g : BitVec 56) (f : Attached → Attached) : State :=
  s.onEngines fun e => { e with attached := e.attached.map fun a => if a.header = g then f a else a }

/-- Has the COMMIT of a run's launch yet to reach a hart's engine (R41)? -/
def Run.waitsCommit (r : Run) (x : Hart) : Bool := r.launch && !r.committed.contains x.id.die

/-- Change a run. -/
def State.onRun (s : State) (r : Nat) (f : Run → Run) : State :=
  s.onEngines fun e => { e with runs := e.runs.map fun x => if x.id = r then f x else x }

/-! ### MSI-X (R55) -/

/-- Is the entry of a vector, or the function, masked? The mask bits stand inverted, for every entry is masked at reset (log 25). -/
def Port0.masked (q : Port0) (v : Nat) : Bool := q.fmask || !(q.msix.read (16 * v + 12)).getLsbD 0

/-- Send the message of a vector, or set its PBA bit while it is masked (R55). -/
def State.raiseVector (s : State) (v : Nat) : State :=
  s.onPort fun q =>
    if q.masked v then { q with pba := Table.set false q.pba v true }
    else { q with sent := q.sent ++ [.message (q.msix.readN (16 * v) 8) (q.msix.readN (16 * v + 8) 4)] }

/-! ### Tokens (R79-R82) -/

/-- R80: the word after the step, and whether it fired. -/
def tokstep (w n g : Nat) : Nat × Bool :=
  let init := bitsOf w 47 32
  let cnt := if bitsOf w 63 48 = g then bitsOf w 31 16 else init
  let flags := if bitsOf w 63 48 = g then bitsOf w 15 0 else 0
  let pack (cnt flags : Nat) : Nat := g * 2 ^ 48 + init * 2 ^ 32 + cnt * 2 ^ 16 + flags
  if cnt = 0 then (pack 0 (flags ||| 2), false)
  else if n ≥ cnt then (pack 0 ((if n > cnt then flags ||| 2 else flags) ||| 1), true)
  else (pack (cnt - n) flags, false)

/-- The sessions of a graph enter a new generation (R272, R273). -/
def State.traceGeneration (s : State) (a : Attached) (old new : Nat) : State :=
  s.eachTrace (fun t => t.graph = a.header) fun s d n => s.traceGen old new d n

/-- Does a reservation stand for an entry (R94)? -/
def Reserve.is (v : Reserve) (r : Ready) : Bool := v.graph = r.graph && v.node = r.node && v.parked = r.parked

/-- Node entries leave the ready queues, with their reservations. -/
def State.dropReady (s : State) (p : Ready → Bool) : State :=
  s.onEngines fun e =>
    let out := e.ready.filter fun r => r.parked.isNone && p r
    { e with ready := e.ready.filter fun r => !out.contains r, reserved := e.reserved.filter fun v => !(out.any v.is) }

/-- The first token step of a generation (R87, R114): the graph becomes ACTIVE, its counters 0, its walks end. -/
def State.wakeGraph (s : State) (a : Attached) : State :=
  let g := s.gen a
  let old := s.gread a 10 2
  if s.gread a 16 1 ≠ 0 ∧ old = g then s
  else
    let s := if old = g then s else s.traceGeneration a old g
    let s := ((((s.gwrite a 16 1 1).gwrite a 20 20 0).gwrite a 40 8 0).gwrite a 64 4 0).gwrite a 10 2 g
    let s := if old = g then s else s.dropReady fun r => r.graph = a.header
    s.onAttached a.header fun x => { x with walks := [] }

/-- Put a node at the tail of its ready queue (R92); an entry that it left in an earlier generation goes. -/
def State.pushReady (s : State) (a : Attached) (i entered : Nat) : State :=
  (s.dropReady fun r => r.graph = a.header && r.node = i).onEngines fun e => { e with ready := e.ready ++
    [⟨a.home, a.header, i, a.slot, s.gread a (nodeOff i 3) 1 % 8, entered, none, false⟩] }

/-- A node enters READY in generation `g` (R87, R89). -/
def State.enterReady (s : State) (a : Attached) (i g : Nat) : State :=
  let s := ((s.gwrite a (nodeOff i 4) 2 g).gwrite a (nodeOff i 37) 1 0).gwrite a (nodeOff i 72) 8 0
  (s.setNode a i 2).pushReady a i s.cycle

/-- Where the engine keeps the generation of a DEFER (R87); no byte of memory holds it. -/
def deferGen (i : Nat) : Nat := nodeOff i 96

/-- The header counter of a terminal state (R74, R88). -/
def counterOff (st : Nat) : Nat := match st with | 5 => 20 | 6 => 24 | 9 => 28 | _ => 32

/-- A node enters a terminal state of the current generation: STATE, then the counter (R88), then NOTIFY (R91). -/
def State.nodeEnters (s : State) (a : Attached) (i st : Nat) : State :=
  let s := ((s.setNode a i st).bump a (counterOff st)).gaudit a (nodeOff i 6) 1
  if s.gread a (nodeOff i 6) 1 / 8 % 2 = 1 then (s.gaudit a 18 2).raiseVector (s.gread a 18 2 % 2048) else s

/-- Change the visit under way of a graph's first walk (R112). -/
def State.onVisit (s : State) (g : BitVec 56) (f : Visit → Visit) : State :=
  s.onAttached g fun x => { x with walks := match x.walks with | w :: ws => { w with visit := w.visit.map f } :: ws | [] => [] }

/-- The walk whose visit of a node has begun and has yet to give it an outcome (R112). -/
def State.visiting (s : State) (a : Attached) (i : Nat) : Option Walk :=
  match s.attachedAt a.header with
  | none => none
  | some x => x.walks.head?.filter fun w => w.visit.any fun v => v.node = i && !v.marked

/-- The walk's record of a node (R111, R112 steps 2 and 3). -/
def State.markReached (s : State) (a : Attached) (n origin : Nat) : State :=
  (s.gwrite a (nodeOff n 72) 8 (origin % 65536 + 5 * 65536)).setLgen a n

/-- Steps 2 to 4 of a visit of an IDLE, WAITING or READY node (R111, R112). A DEFER of the node falls with it, of which the rules do not speak
(DESIGN CHOICE, log 41). -/
def State.reach (s : State) (a : Attached) (w : Walk) (n : Nat) : State :=
  let s := (s.dropReady fun r => r.graph = a.header && r.node = n).gaudit a (nodeOff n 6) 1
  let opt : Bool := s.gread a (nodeOff n 6) 1 / 32 % 2 = 1
  (((s.gwrite a (nodeOff n 43) 1 0).markReached a n w.origin).nodeEnters a n (if opt then 10 else 9)).onVisit a.header fun v =>
    { v with marked := true, skips := opt, queues := !opt }

/-- Is the node of a run PLACING, RUNNING, RETRYING or CANCELLING, whatever its generation (R87)? -/
def Run.busy (r : Run) : Bool := r.state ≠ .aborted && r.state ≠ .ended && (r.state ≠ .running || r.failure.isNone)

/-- A node's counter reaches zero (R87, R89). A cancellation that is just reaching the node goes first (R90). -/
def State.counterZero (s : State) (a : Attached) (i : Nat) : State :=
  if s.nodeState a i ≤ 1 then
    match s.visiting a i with
    | some w => s.reach a w i
    | none =>
      if s.engines.runs.any fun r => r.graph = a.header && r.node = i && r.gen.toNat ≠ s.gen a && r.busy then
        (s.gwrite a (nodeOff i 43) 1 1).keepOwn a (deferGen i) 2 (s.gen a)
      else s.enterReady a i (s.gen a)
  else s

/-- No binding (R82). -/
def noBinding : BitVec 56 × Nat := (0, 65536)

/-- Deliver `n` tokens to a physical address (R80-R82, R87, R89), once the lock of R361 lets the engine write. A step that fires no
node makes an IDLE one WAITING, also one that leaves CNT 0 (log 41). The reads of GEN and of the word count in the class of R65 (log 38). -/
def State.tokenStep (s : State) (die addr n : Nat) : Res Unit :=
  let b := Table.get noBinding s.engines.directory addr
  match s.attachedAt b.1 with
  | none => .ok () (s.onDie die fun d => { d with tokunb := satAdd d.tokunb n })
  | some a =>
    if b.2 = 65536 then .ok () (s.onDie die fun d => { d with tokunb := satAdd d.tokunb n })
    else if s.graphLocked a || s.lockedFor a.home (addr % 2 ^ 44) 8 || s.trafficHeld die a.home || s.linkHeld a.home (addr % 2 ^ 44) then
      .stall .home s
    else
      let s := ((s.overLink die a.home).wakeGraph a).gaudit a 8 2
      let p : Spot := ⟨addr % 2 ^ 44, a.slot.toNat, 2⟩
      match s.check p 8 true with
      | some _ => .ok () s
      | none =>
        let (w, fired) := tokstep (s.peek p 8) n (s.gen a)
        let s := (s.audit 4 false p.loc 8).performWrite a.cx p 8 w .plain
        .ok () (if fired then s.counterZero a b.2
          else if s.nodeState a b.2 = 0 then (s.setLgen a b.2).setNode a b.2 1
          else s)

/-- Where a token word lies (R81, R404): aligned to 8, translated as a write, its owner checked; a free frame is not
claimed. -/
def tokenSpot (s : State) (cx : Ctx) (va : Word) : Res Spot :=
  if va.toNat % 8 ≠ 0 then .trap 0x04 va s
  else if inWindow va then .trap 0x06 va s
  else (resolve s cx .write va).bind fun p s =>
    match s.check p 8 true with
    | some c => .trap c va s
    | none => .ok p s

/-- The token word bound to a node (R82, R85). -/
def State.boundWord (s : State) (a : Attached) (i : Nat) : Option Nat :=
  (s.engines.directory.find? fun e => e.2 = (a.header, i)).map (·.1)

/-- Read the successor list (R78): each entry is a node and a count, or none where it is skipped. -/
def State.successors (s : State) (a : Attached) (i : Nat) : Res (List (Option (Nat × Nat))) :=
  let base := s.gread a (nodeOff i 48) 8
  let n := s.gread a (nodeOff i 44) 2
  (List.range n).foldl (init := Res.ok [] ((s.gaudit a (nodeOff i 44) 2).gaudit a (nodeOff i 48) 8)) fun r j =>
    r.bind fun acc s =>
      match readMem s a.cx (BitVec.ofNat 64 (base + 4 * j)) 4 .plain with
      | .ok v s => .ok (acc ++ [if v % 65536 < a.ncount ∧ v / 65536 ≠ 0 then some (v % 65536, v / 65536) else none]) s
      | .trap _ _ s => .ok (acc ++ [none]) s
      | .stall w s => .stall w s

/-- Count skipped entries in BADREF (R78). -/
def State.countBad (s : State) (a : Attached) (n : Nat) : State :=
  if n = 0 then s else s.gwrite a 64 4 (min (s.gread a 64 4 + n) (2 ^ 32 - 1))

/-- The successor tokens of a node, in list order (R78, R81, R89). -/
def State.successorTokens (s : State) (a : Attached) (i : Nat) : Res Unit :=
  (s.successors a i).bind fun es s =>
    let s := s.countBad a (es.filter (· = none)).length
    es.foldl (init := Res.ok () s) fun r e => r.bind fun _ s =>
      match e with
      | some (j, n) => (match s.boundWord a j with | some w => s.tokenStep a.home w n | none => .ok () s)
      | none => .ok () s

/-- The graph leaves ACTIVE when its counters say so (R91): the token to CTOK is delivered, and then VECTOR is raised. A token that
cannot be delivered is lost (log 20); CTOK is translated as a write, as TOKEN is (R404; DESIGN CHOICE, log 41). -/
def State.graphDone (s : State) (a : Attached) : Res Unit :=
  let done := s.gread a 20 4
  let fault := s.gread a 24 4
  let cancel := s.gread a 28 4
  let skip := s.gread a 32 4
  let flags := s.gread a 7 1
  let finish (s : State) (st : Nat) (token notify : Bool) : Res Unit :=
    let s := (s.gwrite a 16 1 st).gaudit a 7 1
    let ctok := s.gread a 48 8
    let told (s : State) : Res Unit := .ok () (if notify then (s.gaudit a 18 2).raiseVector (s.gread a 18 2 % 2048) else s)
    if token ∧ ctok ≠ 0 then
      match tokenSpot (s.gaudit a 48 8) a.cx (BitVec.ofNat 64 ctok) with
      | .ok p s => (s.tokenStep a.home p.loc 1).bind fun _ s => told s
      | .trap _ _ s => told s
      | .stall w s => .stall w s
    else told s
  if s.gread a 16 1 ≠ 1 then .ok () s
  else if done + skip = a.ncount then finish s 2 true (flags % 2 = 1)
  else if done + skip + fault + cancel = a.ncount then finish s 3 (flags / 4 % 2 = 1) (flags / 2 % 2 = 1)
  else .ok () s

/-- A node enters a terminal state of the current generation (R88, R91): a SKIPPED or DONE node's successor tokens follow (R89), then the
graph's end (R91). -/
def State.nodeEnds (s : State) (a : Attached) (i st : Nat) : Res Unit :=
  let s := s.nodeEnters a i st
  (if st = 5 ∨ st = 10 then s.successorTokens a i else .ok () s).bind fun _ s => s.graphDone a

/-! ### Planes (R37) and gangs over packages (R41-R43) -/

/-- The live planes (R37): those with a port that has a lane. -/
def State.livePlanes (s : State) : List Nat := (List.range 36).filter fun j => (List.range 4).any fun d => ((s.die d).port j).lanes ≠ 0

/-- The die whose port of a plane carries traffic of die `d` (R37): its own while that is live, else the lowest-numbered live one. -/
def State.planeDie (s : State) (d j : Nat) : Nat :=
  if ((s.die d).port j).lanes ≠ 0 then d else ((List.range 4).find? fun b => ((s.die b).port j).lanes ≠ 0).getD d

/-- The plane that carries the traffic of a hart's queue for a package (R37): among the live ones the first by a hash that the manual
leaves to the part (log 35), so that a queue keeps its plane while it is live. -/
def State.planeOf (s : State) (h : HartId) (pkg : Nat) : Option Nat :=
  let rank (j : Nat) : Nat := Config.planeRank (h.die * 4096 + h.clu * 128 + h.core * 8 + h.slot) pkg j
  s.livePlanes.foldl (init := none) fun b j => match b with
    | some i => if rank j < rank i then some j else b
    | none => some j

/-- The gang engine of a die tells that of another package (R41): a signal flit, on a plane chosen as for a queue of the die's management
core (log 33). With no live plane it is lost. -/
def State.sendGang (s : State) (die pkg : Nat) (w : GangWord) : State :=
  match s.planeOf ⟨die, 16, 0, 0⟩ pkg with
  | some j => s.onScalePort (s.planeDie die j) j fun p => p.send (.gang pkg w)
  | none => s

/-- Every other package that holds harts of a run is told. -/
def State.tellFar (s : State) (r : Run) (w : GangWord) : State :=
  (r.far.map (·.1)).eraseDups.foldl (init := s) fun s p => s.sendGang r.home p w

/-- The home engine of a run that this package only takes part in is told, under its own number of the run. -/
def State.tellHome (s : State) (r : Run) (w : Nat → GangWord) : State :=
  match r.origin with
  | some (p, n) => s.sendGang r.home p (w n)
  | none => s

/-- A slot as LOC of a fault record has it (R116). -/
def slotLoc (h : HartId) : Nat := h.die + h.clu * 4 + h.core * 64 + h.slot * 1024

/-- The slot of a LOC. -/
def slotAt (n : Nat) : HartId := ⟨n % 4, n / 4 % 16, n / 64 % 16, n / 1024 % 8⟩

/-! ### Cancel requests (R104, R108) -/

/-- A cancel request arrives at a hart (R108, R109). -/
def Hart.cancelArrives (x : Hart) (now : Nat) : Hart :=
  match x.occ with
  | .running | .stopped | .preempted => { x with wait := { x.wait with cancel := some (x.wait.cancel.getD now) } }
  | _ => x

/-- Where a spill area lies (R233). -/
def Die.areaLoc (x : Die) (i : Nat) : Nat := bitsOf x.splbase.toNat 43 16 * 2 ^ 16 + i * 0x1410000

/-- May slot 0 write `n` bytes of a spill area: HBM frames of this package that slot 0 owns, or may claim (R233)? -/
def State.areaOpen (s : State) (d loc n : Nat) : Bool :=
  bitsOf (s.die d).splbase.toNat 55 44 = s.pkgid.toNat && (List.range ((n + 0xFFFF) / 0x10000)).all fun i =>
    spaceOf (loc + i * 0x10000) = .hbm && s.store.guard 0 (loc + i * 0x10000) true ≠ .refused

/-- Must a write of the hardware to `n` bytes wait: for the lock of R361, or for a link from the die (R32, R36)? -/
def State.hardwareHeld (s : State) (die loc n : Nat) : Bool := s.lockedFor nobody loc n || s.linkHeld die loc

/-- A spill area goes back to its die's pool, its used part written with zeros under slot 0 (R233), once that write may be made (R361);
where slot 0 may not write, nothing is (log 19). -/
def State.emptyArea (s : State) (die i used : Nat) : State :=
  let loc := (s.die die).areaLoc i
  if used ≠ 0 ∧ s.areaOpen die loc used then
    if s.hardwareHeld die loc used then s.onDie die fun d => { d with splZero := Table.set 0 d.splZero i used }
    else (s.overwrite loc used 0 fun b => b.zero loc (loc + used)).onDie die fun d =>
      { d with splUsed := d.splUsed.erase i, splZero := Table.set 0 d.splZero i 0 }
  else s.onDie die fun d => { d with splUsed := d.splUsed.erase i, splZero := Table.set 0 d.splZero i 0 }

/-- A lease's spill area is returned (R233). -/
def State.freeArea (s : State) (die : Nat) (l : Lease) : State :=
  match l.area with
  | none => s
  | some i => s.emptyArea die i l.used

/-- The areas whose write of zeros had to wait are tried again (R233, R361). -/
def State.retryAreas (s : State) : State :=
  (List.range 4).foldl (init := s) fun s d => (s.die d).splZero.foldl (init := s) fun s e => s.emptyArea d e.1 e.2

/-- The pre-empted harts of a run that the engines hold are dropped (R108, R238). -/
def State.dropParked (s : State) (run : Nat) (p : Hart → Bool) : State :=
  let gone := s.engines.parked.filter fun x => x.place.run = some run && p x
  let s := gone.foldl (init := s) fun s x => s.freeArea x.id.die x.lease
  let is (u : Nat) : Bool := gone.any fun y => y.uid = u
  let s := gone.foldl (init := s) fun s x => match s.runOf x with
    | some r => s.tellHome r fun n => .gone n x.place.hix.toNat
    | none => s
  let s := s.onEngines fun e => { e with
    parked := e.parked.filter fun x => !is x.uid
    ready := e.ready.filter fun x => !x.parked.any is
    reserved := e.reserved.filter fun v => !v.parked.any is }
  s.onRun run fun r => { r with live := r.live.filter fun u => !is u }

/-- Cancel requests go to every hart of a run but one; its harts not yet started, and those pre-empted, are dropped
(R104, R108, R238). -/
def State.cancelRun (s : State) (r : Run) (butUid : Nat) : State :=
  let s := ((s.dropParked r.id fun _ => true).onRun r.id fun r => { r with toStart := [] }).tellFar r (.cancel r.id)
  s.mapHarts fun x => if x.place.run = some r.id ∧ x.uid ≠ butUid then x.cancelArrives s.cycle else x

/-! ### Failures (R102-R107, R110, R116) -/

/-- The words of a fault record (R116). TIME is that of the trap that the failure follows, where there is one (R433), else `now`. -/
def faultRecord (f : Failure) (attempt gen nfailh hdone next : Nat) (now : Word) : List Nat :=
  let loc := match f.loc with | some h => slotLoc h | none => 0
  [0x4C52465A + 2 ^ 32 + f.reason * 2 ^ 48 + attempt * 2 ^ 56,
   gen + f.code % 65536 * 2 ^ 16 + f.fhix * 2 ^ 32 + nfailh * 2 ^ 48,
   (f.time.getD now).toNat, f.epc.toNat, (if f.reason = 2 then f.tval.toNat else 0), loc + hdone * 2 ^ 32,
   f.lost + next * 2 ^ 16, 0]

/-- May the engine write the 64 bytes of a fault record: both ends are translated and owned (R116)? -/
def recordOpen (s : State) (cx : Ctx) (va : Nat) : Res Bool :=
  let one (va : Nat) (s : State) : Res Bool := match resolve s cx .write (BitVec.ofNat 64 va) with
    | .ok p s => .ok (s.check p 8 true).isNone s
    | .trap _ _ s => .ok false s
    | .stall w s => .stall w s
  (one va s).bind fun a s => if a then one (va + 56) s else .ok false s

/-- Write 8-byte words at rising virtual addresses. -/
def writeWords (s : State) (cx : Ctx) (va : Nat) : List Nat → Res Unit
  | [] => .ok () s
  | w :: ws =>
    match writeMem s cx (BitVec.ofNat 64 va) 8 w .plain with
    | .ok _ s => writeWords s cx (va + 8) ws
    | .trap _ _ s => .ok () s
    | .stall x s => .stall x s

/-- STATUS (R77). -/
def statusWord (f : Failure) : Nat := f.code % 65536 + f.reason * 65536 + f.fhix * 2 ^ 32

/-- A node's entry into FAULTED starts a walk (R110, R113); CURSOR tells with the first visit. -/
def State.startWalk (s : State) (a : Attached) (i : Nat) : Res Unit :=
  let all := s.gread a (nodeOff i 6) 1 / 16 % 2 = 1
  let s := s.gaudit a (nodeOff i 6) 1
  let start (q : List Nat) (s : State) : Res Unit :=
    .ok () (if q = [] then s else s.onAttached a.header fun x => { x with walks := x.walks ++ [⟨i, q, q, all, none⟩] })
  if all then start ((List.range a.ncount).filter (· ≠ i)) s
  else (s.successors a i).bind fun es s =>
    start ((es.filterMap (·.map (·.1))).eraseDups) (s.countBad a (es.filter (· = none)).length)

/-- The engine writes a fault record, if FREC is not 0 and the write is not refused (R116). -/
def State.writeRecord (s : State) (a : Attached) (i : Nat) (f : Failure) (attempt nfailh next : Nat) : Res Unit :=
  let frec := s.gread a (nodeOff i 80) 8
  let s := s.gaudit a (nodeOff i 80) 8
  if frec = 0 then .ok () s
  else (recordOpen s a.cx frec).bind fun ok s =>
    if ok then writeWords s a.cx frec (faultRecord f attempt (s.gen a) nfailh (s.gread a (nodeOff i 92) 4) next s.port.time)
    else .ok () s

/-- The engine records a failure of a node (R104 steps 3 to 5, R105): the record, STATUS, STATE and counter; a node
not retried becomes FAULTED and starts a walk. `retry` says that it is retried and in which state it then stands. -/
def State.recordFailure (s : State) (a : Attached) (i : Nat) (f : Failure) (nfailh : Nat) (retry : Option Nat) :
    Res Unit :=
  let used := s.gread a (nodeOff i 37) 1
  (s.writeRecord a i f used nfailh (if retry.isSome then 1 else 0)).bind fun _ s =>
    let s := s.gwrite a (nodeOff i 72) 8 (statusWord f)
    match retry with
    | some st => .ok () (((s.gwrite a (nodeOff i 37) 1 (used + 1)).setNode a i st).bump a 36)
    | none => (s.nodeEnds a i 6).bind fun _ s => s.startWalk a i

/-- Is the run of the current generation and its node RUNNING or RETRYING (R87, R103)? -/
def State.runCounts (s : State) (a : Attached) (r : Run) : Bool :=
  r.state ≠ .aborted && r.gen.toNat = s.gen a && (s.nodeState a r.node = 4 || s.nodeState a r.node = 7)

/-- Two harts of a run fail in one cycle: the one of lower HIX is the first (R102). -/
def State.reviseFailure (s : State) (a : Attached) (r : Run) (f : Failure) : Res Unit :=
  let retried : Nat := if r.state = .retrying then 1 else 0
  let s := s.onRun r.id fun r => { r with nfailh := r.nfailh + 1 }
  if r.failure.all fun g => g.loc.isSome && f.fhix < g.fhix then
    (s.writeRecord a r.node f (s.gread a (nodeOff r.node 37) 1 - retried) (r.nfailh + 1) retried).bind fun _ s =>
      .ok () ((s.gwrite a (nodeOff r.node 72) 8 (statusWord f)).onRun r.id fun r => { r with failure := some f })
  else .ok () s

/-- A run fails at a hart (R102-R105): at its home engine. -/
def State.failRun (s : State) (r : Run) (f : Failure) (uid : Nat) : Res Unit :=
  match s.attachedAt r.graph with
  | none =>
    let place := BitVec.ofNat 13 (match f.loc with | some h => slotLoc h | none => 0)
    .ok () (if r.state = .aborted then s
      else s.tellHome r fun n => .failed n f.fhix f.reason f.code f.epc f.tval place f.time)
  | some a =>
    if s.graphLocked a then .stall .home s
    else if r.failure.isSome ∧ r.failedAt = s.cycle ∧ r.state ≠ .cancelling ∧ r.gen.toNat = s.gen a then s.reviseFailure a r f
    else if !s.runCounts a r then .ok () s
    else if r.failure.isSome then .ok () (s.onRun r.id fun r => { r with nfailh := r.nfailh + 1 })
    else
      let flags := s.gread a (nodeOff r.node 6) 1
      let retry := s.nodeState a r.node = 4 ∧ flags % 2 = 1
        ∧ s.gread a (nodeOff r.node 37) 1 < s.gread a (nodeOff r.node 36) 1 ∧ (f.reason ≠ 4 ∨ flags / 2 % 2 = 1)
      let s := (((s.gaudit a 8 2).gaudit a (nodeOff r.node 6) 1).gaudit a (nodeOff r.node 36) 1).cancelRun r uid
      (s.recordFailure a r.node f 1 (if retry then some 7 else none)).bind fun _ s =>
        .ok () (s.onRun r.id fun r =>
          { r with failure := some f, failedAt := s.cycle, nfailh := 1, state := if retry then .retrying else r.state })

/-- A failed placement ends a node as FAULTED (R89, R102). -/
def State.failPlacing (s : State) (a : Attached) (i reason code : Nat) : Res Unit :=
  s.recordFailure a i ⟨reason, code, 0, 0, 0, none, 0, none⟩ 0 none

/-! ### The end of a run (R87, R89, R99, R106, R116) -/

/-- A run has no hart left (R87, R89, R106): its node moves on. -/
def State.endRun (s : State) (r : Run) : Res Unit :=
  let s := s.onEngines fun e => { e with runs := e.runs.filter fun x => x.id ≠ r.id }
  match s.attachedAt r.graph with
  | none => .ok () s
  | some a =>
    if r.state = .aborted then .ok () s
    else if s.graphLocked a then .stall .home s
    else
    let frec := s.gread a (nodeOff r.node 80) 8
    let s := ((s.gaudit a 8 2).gaudit a (nodeOff r.node 6) 1).gaudit a (nodeOff r.node 80) 8
    let count : Res Unit :=
      if r.failure.isSome ∧ frec ≠ 0 then
        (recordOpen s a.cx frec).bind fun ok s =>
          if ok then writeMem s a.cx (BitVec.ofNat 64 (frec + 14)) 2 (min r.nfailh 65535) .plain else .ok () s
      else .ok () s
    let opt := s.gread a (nodeOff r.node 6) 1 / 32 % 2 = 1
    let final := match r.state with
      | .cancelling => (if opt then 10 else 9) | .retrying => 2 | _ => s.gread a (nodeOff r.node 2) 1
    count.bind fun _ s =>
      if r.gen.toNat ≠ s.gen a then
        let s := if s.gread a (nodeOff r.node 4) 2 ≠ s.gen a then s.setNode a r.node final else s
        if s.gread a (nodeOff r.node 43) 1 % 2 = 1 then
          let s := s.gwrite a (nodeOff r.node 43) 1 0
          .ok () (if s.nodeState a r.node ≤ 1 then s.enterReady a r.node (s.engines.own.readN (a.base + deferGen r.node) 2) else s)
        else .ok () s
      else match r.state with
        | .retrying => .ok () ((s.setNode a r.node 2).pushReady a r.node s.cycle)
        | .cancelling => s.nodeEnds a r.node final
        | _ => .ok () s

/-- Has a run no hart left, here or in another package? -/
def Run.over (r : Run) : Bool := r.live = [] && r.toStart = [] && r.far = []

/-- A hart of a run has gone (R89, R106). -/
def State.hartGone (s : State) (r : Run) (x : Hart) : Res Unit :=
  let r := { r with live := r.live.filter (· ≠ x.uid) }
  let s := (s.onRun r.id fun y => { y with live := r.live }).tellHome r fun n => .gone n x.place.hix.toNat
  if r.over then s.endRun r else .ok () s

/-- Are all bits of the done-hart mask set, from that of HIX `first` on (R99)? A word that cannot be read has none set (log 20). -/
def maskFull (s : State) (a : Attached) (va first gsize : Nat) : Nat → Res Bool
  | 0 => .ok true s
  | n + 1 => match readMem s a.cx (BitVec.ofNat 64 va) 8 .plain with
    | .stall w s => .stall w s
    | .trap _ _ s => .ok false s
    | .ok m s =>
      if (List.range 64).all fun i => gsize ≤ first + i || m.testBit i then maskFull s a (va + 8) (first + 64) gsize n
      else .ok false s

/-- The node of a run whose mask is full is DONE (R99); nothing more of the run starts (DESIGN CHOICE, log 41). -/
def State.runDone (s : State) (a : Attached) (r : Run) : Res Unit :=
  let ended (s : State) : State := s.onRun r.id fun r => { r with state := .ended, toStart := [] }
  if r.gen.toNat ≠ s.gen a then
    .ok () (if r.state = .running ∧ r.failure.isNone then
      ended (if s.gread a (nodeOff r.node 4) 2 ≠ s.gen a then s.setNode a r.node 5 else s) else s)
  else if s.nodeState a r.node = 4 then (ended s).nodeEnds a r.node 5
  else .ok () s

/-- The TEXIT of hart `h` of a run counts (R99): its bit in the done-hart mask, HDONE, and the node's end with the last bit. A refused
write fails the run, at the hart `uid` in slot `loc`. `told`: does the report reach the home engine (R31, R44)? -/
def State.countDone (s : State) (r : Run) (h : Nat) (epc : Word) (loc : HartId) (uid : Nat) (told : Bool) : Res Unit :=
  match s.attachedAt r.graph with
  | none => .ok () (s.tellHome r fun n => .done n h epc (BitVec.ofNat 13 (slotLoc loc)))
  | some a =>
    if s.graphLocked a then .stall .home s
    else
    let mask := s.gread a (nodeOff r.node 64) 8
    let va := BitVec.ofNat 64 (mask + 8 * (h / 64))
    match updateMem (s.gaudit a (nodeOff r.node 64) 8) a.cx va 8 .plain (fun m => some (m ||| 2 ^ (h % 64))) with
    | .stall w s => .stall w s
    | .trap c _ s => s.failRun r ⟨2, c, h, epc, va, some loc, 0, none⟩ uid
    | .ok _ s =>
      if !told then .ok () s
      else
        let s := s.gwrite a (nodeOff r.node 92) 4 (s.gread a (nodeOff r.node 92) 4 + 1)
        (maskFull s a mask 0 r.gsize ((r.gsize + 63) / 64)).bind fun full s =>
          if full then (s.gaudit a 8 2).runDone a r else .ok () s

/-- A hart's TEXIT counts (R99). Its report to the home engine is lost with the link (R31, R44). -/
def State.setDone (s : State) (r : Run) (x : Hart) : Res Unit :=
  s.countDone r x.place.hix.toNat x.base.pc x.id x.uid (s.joined r.home x.id.die)

end Sys2Proof.Machine
end

