-- ==== Sys2Proof/Machine/Ops.lean ====
section
/-! DEFINITION. The operations that instructions share: registers, the program counter, the checks of R290, taking
an exception and returning from one (R222-R230), the end of a hart, instruction fetch. They act on the hart in
focus. -/

namespace Sys2Proof

/-- Does the slot belong to a management core? -/
def HartId.mgmt (h : HartId) : Bool := h.clu = Config.mgmtCluster

/-- The word of an instruction, zero-extended; 0 for an event (R224). -/
def Instr.word (i : Instr) : Word :=
  match encode i with | .scalar w => BitVec.ofNat 64 w | .vector w => BitVec.ofNat 64 w | .event => 0

/-- The instructions that slot 7 bars (R153). -/
def Instr.barredInHandler : Instr → Bool
  | .msg .. | .wait .. | .swwait .. | .barj .. | .bara .. | .barw .. | .barl .. | .texit | .tfail .. | .trap .. | .brk
  | .vlease .. | .vsetl .. | .vfetch .. | .vsync .. | .vcommit | .vrel | .mbegin .. | .mend
  | .qset .. | .qsetOff .. | .qpos .. | .qposRd .. | .qcopy .. | .qput .. | .qfence .. | .swarm ..
  | .xput .. | .xget .. | .xsig .. => true
  | _ => false

/-- The instructions barred while TDEPTH is above 0 (R228). -/
def Instr.barredInTrap : Instr → Bool
  | .vlease .. | .vsetl .. | .vfetch .. | .vsync .. | .vcommit | .vrel | .mbegin .. | .mend
  | .msg .. | .xput .. | .xget .. | .xsig .. | .qcopy .. | .qput ..
  | .barj .. | .bara .. | .barw .. | .barl .. | .texit => true
  | _ => false

end Sys2Proof

namespace Sys2Proof.Machine

/-- What `exec` and `step` answer. -/
abbrev Out := Host.Outcome State Fault Refusal

/-! ### Registers -/

/-- `g(n)` of R293; g0 reads 0 (R276). -/
def Hart.gr (x : Hart) (r : Gpr) : Word := if r = 0 then 0 else x.base.g[r.toNat]'r.isLt

/-- `setg` of R293; a write of g0 is discarded (R276). -/
def Hart.setGr (x : Hart) (r : Gpr) (v : Word) : Hart :=
  if r = 0 then x else { x with base := { x.base with g := x.base.g.set r.toNat v r.isLt } }

/-- A general register of the hart in focus. -/
def State.g (s : State) (r : Gpr) : Word := s.cur.gr r

/-- Write a general register of the hart in focus. -/
def State.setG (s : State) (r : Gpr) (v : Word) : State := { s with cur := s.cur.setGr r v }

/-- The program counter of the hart in focus. -/
def State.pc (s : State) : Word := s.cur.base.pc

/-- The instruction retires and the next one stands at `t`: no stall is left, and breakpoints match again (R268). -/
def Hart.goto (x : Hart) (t : Word) : Hart :=
  { x with base := { x.base with pc := t }, wait := { x.wait with stall := none }, trap := { x.trap with afterTret := false } }

/-- The instruction retires to a target. -/
def State.goto (s : State) (t : Word) : State := { s with cur := s.cur.goto t }

/-- The instruction retires to the next word (R281). -/
def State.advance (s : State) : State := s.goto (s.pc + 4)

/-- The instruction waits and will be executed again (R145). -/
def State.stalled (s : State) (w : Stall) : State :=
  { s with cur := { s.cur with wait := { s.cur.wait with stall := some w } } }

/-- No VWAITV is under way (R363). -/
def Waiting.noVwait (w : Waiting) : Waiting := { w with deadline := none, woken := false, watch := [], bad := none, vstall := none }

/-- OR flags into FLAGS (R250): `sflags` of R293. -/
def State.sflags (s : State) (fl : BitVec 5) : State :=
  { s with cur := { s.cur with fp := { s.cur.fp with flags := s.cur.fp.flags ||| fl } } }

/-- Has an arbiter's round of this cycle changed the hart's lease, so that it goes on with the next cycle (R26, log 14)? -/
def State.roundHolds (s : State) (x : Hart) : Bool := s.rounds.any fun m => m.harts.any fun y => y.uid = x.uid

/-! ### The vector side at the end of a hart or a strip -/

/-- The address of the next convoy to issue (R149, R161). -/
def Hart.cvp (x : Hart) : Word :=
  match x.vec.queue with
  | b :: _ => b.addr + BitVec.ofNat 64 (8 * b.head)
  | [] => 0

/-- The words of the convoy at an address, 4 at most: up to one with C, as memory stands (R158). -/
def State.convoyWords (s : State) (x : Hart) (va : Word) : Nat → Nat
  | 0 => 0
  | k + 1 => match resolve s x.cx .fetch va with
    | .ok p _ => if (s.peek p 8).testBit 63 then 1 else 1 + s.convoyWords x (va + 8) k
    | _ => 0

/-- The convoy that runs or is at its head, or else the last of the strip: its head and its number of words, 1 to 4 (R270). -/
def State.convoyNow (s : State) (x : Hart) : Word × Nat :=
  match x.vec.queue with
  | b :: _ => (x.cvp, if b.words ≠ [] then min 4 b.words.length else max 1 (s.convoyWords x x.cvp 4))
  | [] => x.vec.last

/-- Lease NONE (R122), vector work discarded (R405): registers, queue, strip, session, Marrow entries, links (R359). VLREQ stays (R121). -/
def Hart.dropVector (x : Hart) : Hart :=
  { x with
    vec := { x.vec with vl := 0, vbl := 0, seenVl := 0, seenVbl := 0, queue := [], strip := none, reopen := none, maskPods := none, regs := .zero, lanes := [],
                        laneSeeds := [], marrow := [], session := none }
    lease := { Lease.empty x.id.die x.id.clu x.lease.pri with req := x.lease.req, revoke := x.lease.revoke, shrink := x.lease.shrink }
    links := [] }

/-- A slot after its hart has gone (R144, R153): the registers of the hart are discarded; the supervisor and
management registers of the slot stay (log 21), the key slot that last used it (R62), and the events held for slot 0 of a management
core (R225). -/
def Hart.cleared (x : Hart) : Hart :=
  let y := Hart.reset x.id
  { y with
    sel := x.sel, base := { y.base with key := x.base.key }
    trap := { y.trap with stvec := x.trap.stvec, sscr := x.trap.sscr, mtvec := x.trap.mtvec, mscr := x.trap.mscr
                          held := if x.id.mgmt && x.id.slot = 0 then x.trap.held else [] } }

/-! ### Barriers that a hart leaves (R402) -/

/-- Has member `h` arrived at the episode that is not yet released, or left? -/
def Barrier.met (b : Barrier) (h : Nat) : Bool := b.left.contains h || Table.get 0 b.arrived h ≠ b.r

/-- Release the episode when every member has arrived or left (R402). -/
def Barrier.settle (b : Barrier) (gsize : Nat) : Barrier :=
  if (List.range gsize).all b.met && (List.range gsize).any fun h => !b.left.contains h then { b with r := b.r + 1 } else b

/-- A barrier of a run. -/
def Run.bar (r : Run) (i : BitVec 3) : Barrier := r.bars[i.toNat]'i.isLt

/-- Change a barrier of a run. -/
def State.onBar (s : State) (r : Run) (i : BitVec 3) (b : Barrier) : State :=
  s.onRun r.id fun y => { y with bars := y.bars.set i.toNat b i.isLt }

/-- The home engine changes a barrier, and tells the other packages of the gang what is released (R41, R402). -/
def State.atBar (s : State) (r : Run) (i : BitVec 3) (b : Barrier) : State :=
  let s := s.onBar r i b
  if b.r = (r.bar i).r || !r.cores then s else s.tellFar r (.released r.id i b.r)

/-- Hart `h` of a run leaves a barrier (R402); only the home engine settles it, which that of another package's gang tells. -/
def State.leaveBar (s : State) (r : Run) (i : BitVec 3) (h : Nat) : State :=
  let b : Barrier := { r.bar i with left := h :: (r.bar i).left }
  let s := s.atBar r i (if r.origin.isSome then b else b.settle r.gsize)
  if r.cores then s.tellHome r fun n => .left n h i else s

/-- A member leaves every barrier of its gang (R402). Nobody learns of it while the sideband to the home engine is down (R31). -/
def State.leaveBarriers (s : State) (x : Hart) : State :=
  (List.range 8).foldl (init := s) fun s i => match s.runOf x with
    | none => s
    | some r =>
      if (r.bar (BitVec.ofNat 3 i)).left.contains x.place.hix.toNat || !s.joined r.home x.id.die then s
      else s.leaveBar r (BitVec.ofNat 3 i) x.place.hix.toNat

/-! ### Failing (R102, R405) -/

/-- The hart in focus ends: barriers left, vector work discarded, lease and spill area given back; it then waits for
its queues (R405) and for the close of its session (R370), which HART_RETIRE ends. A strip still open is aborted (R270
KIND 3). -/
def State.endHart (s : State) (exited : Bool) : State :=
  let x := s.cur
  let s := match x.vec.strip with
    | some t => if t.aborted then s else s.traceHart x 3 (s.convoyNow x).2 (s.convoyNow x).1 0
    | none => s
  let s := (s.leaveBarriers x).freeArea x.id.die x.lease
  s.onCur fun x =>
    let y := x.dropVector
    { y with occ := .retiring exited, vec := { y.vec with session := x.vec.session }
             wait := { x.wait.noVwait with stall := none, barj := none, cancel := none, stays := none }, trap := { x.trap with vtrap := none } }

/-- The access that the hart in focus waits for is abandoned (R319): what it has asked for and what has come for it is nobody's. -/
def State.abandonAccess (s : State) : State :=
  let who := s.cur.uid * 4
  { s with
    port := { s.port with answers := s.port.answers.filter fun x => x.who ≠ who
                          requests := s.port.requests.map fun x => if x.who = who then { x with who := nobody } else x }
    store := { s.store with failed := s.store.failed.filter fun x => x.1 ≠ who }
    dies := s.dies.map fun d => { d with steward := { d.steward with
      services := d.steward.services.map fun v => { v with waiters := v.waiters.filter (· ≠ who) } } } }

/-- A cancel request lands at the hart in focus (R108): it ends, pending traps are discarded (R226), its replies too. -/
def State.cancelLands (s : State) : State :=
  (s.abandonAccess.endHart false).onCur fun x =>
    { x with occ := .cancelled, wait := .reset, trap := { x.trap with held := [] }, ev := { x.ev with out := 0 } }

/-- The hart in focus fails (R102, R104): its run fails, or the failure is held until COMMIT (R41); then the hart
ends. -/
def State.hartFails (s : State) (f : Failure) : State :=
  match s.runOf s.cur with
  | none => s.endHart false
  | some r =>
    if r.waitsCommit s.cur then
      (s.onRun r.id fun r => { r with held := r.held ++ [(s.cur.uid, f)] }).endHart false
    else match s.failRun r f s.cur.uid with
      | .ok _ s => s.endHart false
      | .trap _ _ s => s.endHart false
      | .stall w s' => (s.keepRequests s').stalled (if w = .lock then .home else w)

/-- A handler in slot 7 fails (R153): the failure word goes to the sender, the slot is cleared. -/
def State.handlerFails (s : State) (cause : Nat) : State :=
  match s.cur.handler with
  | none => s
  | some h =>
    let v : Word := BitVec.ofNat 64 (cause % 256 + h.msg.hnd.toNat * 256)
    { s.overLink s.cur.id.die h.msg.sender.die with
        cur := s.cur.cleared, replies := s.replies ++ [⟨h.msg.uid, v, true, h.msg.reply, s.cur.id.die⟩] }

/-! ### Trap frames (R227, R230) -/

/-- Frame `d` of a slot: in its context area (R230), or for a management core in the slot (log 8). -/
def State.frame (s : State) (x : Hart) (d : Nat) : Frame :=
  if x.id.mgmt then x.trap.frames[d % 2]'(Nat.mod_lt _ (by decide))
  else
    let a := contextLoc x.id + 64 * (d % 2)
    let w (o : Nat) : Word := BitVec.ofNat 64 (s.store.bytes.readN (a + o) 8)
    let b := (s.store.bytes.read (a + 32))
    { cause := BitVec.ofNat 8 (w 0).toNat, epc := w 8, tval := w 16, rpc := w 24, plv := b.extractLsb' 0 2,
      vec := b.getLsbD 2, rply := b.getLsbD 3 }

/-- The frames of a slot's context area become zero: a hart's CAUSE, EPC and TVAL start at 0 (R148, R223). Those of a management core
stand in the slot. -/
def State.zeroFrames (s : State) (h : HartId) : State :=
  if h.mgmt then s
  else
    let a := contextLoc h
    s.overwrite a 128 0 fun b => b.zero a (a + 128)

/-- Store frame `d` of the hart in focus. -/
def State.setFrame (s : State) (d : Nat) (f : Frame) : State :=
  if s.cur.id.mgmt then
    { s with cur := { s.cur with trap := { s.cur.trap with frames := s.cur.trap.frames.set (d % 2) f (Nat.mod_lt _ (by decide)) } } }
  else
    let a := contextLoc s.cur.id + 64 * (d % 2)
    let flags := f.plv.toNat + (if f.vec then 4 else 0) + (if f.rply then 8 else 0)
    s.overwrite a 64 0 fun b =>
      (((((b.writeN a 8 f.cause.toNat).writeN (a + 8) 8 f.epc.toNat).writeN (a + 16) 8 f.tval.toNat).writeN
        (a + 24) 8 f.rpc.toNat).writeN (a + 32) 8 flags).zero (a + 40) (a + 64)

/-- The frame the trap registers show: TDEPTH - 1, or 0 (R223). -/
def State.shownFrame (s : State) : Frame := s.frame s.cur (s.cur.trap.depth - 1)

/-- The code of a level in PLV (R223). -/
def Level.code : Level → Nat
  | .user => 0 | .supervisor => 1 | .management => 2

/-- The level of a code. -/
def Level.ofCode (n : Nat) : Level := match n with | 0 => .user | 1 => .supervisor | _ => .management

/-- Exchange g31 with the scratch register of a level (R227, R229). -/
def Hart.swapScratch (x : Hart) (l : Level) : Hart :=
  let v := x.gr 31
  match l with
  | .user => { x.setGr 31 x.trap.uscr with trap := { x.trap with uscr := v } }
  | .supervisor => { x.setGr 31 x.trap.sscr with trap := { x.trap with sscr := v } }
  | .management => { x.setGr 31 x.trap.mscr with trap := { x.trap with mscr := v } }

/-- The entry of a level: bits [63:2] of EMUV, STVEC or MTVEC (R227). -/
def Hart.entryOf (x : Hart) (l : Level) : Word :=
  let v := match l with | .user => x.trap.emuv | .supervisor => x.trap.stvec | .management => x.trap.mtvec
  v &&& ~~~3

/-- What a trap of a cause does (R227). -/
inductive TrapRoute where
  /-- Enter the handler of a level, with the cause that its frame shows. -/
  | enter (tgt : Level) (cause : Nat)
  /-- The slot of a management core stops. -/
  | stop
  /-- The hart fails as escalated. -/
  | escalate
  deriving DecidableEq, Repr

/-- The choice of R227. -/
def Hart.trapRoute (x : Hart) (cause : Nat) : TrapRoute :=
  if x.id.mgmt then (if x.trap.depth ≥ 2 then .stop else .enter .management cause)
  else if cause = 0x02 ∧ x.base.level = .user ∧ x.trap.depth = 0 ∧ x.trap.emuv ≠ 0 then .enter .user cause
  else if cause = 0x02 ∧ x.base.level = .user ∧ x.trap.depth = 1 then .enter .supervisor 0x0D
  else if x.base.level = .supervisor then .escalate
  else .enter .supervisor cause

/-- Must the frame of the next trap wait for a locked line (R361)? -/
def State.frameHeld (s : State) : Bool :=
  !s.cur.id.mgmt && s.hardwareHeld s.cur.id.die (contextLoc s.cur.id + 64 * (s.cur.trap.depth % 2)) 64

/-- Enter a handler (R227): the frame, the exchange of g31, the level, TDEPTH, the PC. Links are cleared (R359), a
KIND 4 record is emitted (R270), an access that the hart waits for is abandoned (R226); TIME is kept for a failure that follows (R433). -/
def State.enterHandler (s : State) (tgt : Level) (cause : Nat) (tval epc rpc : Word) (vec : Bool) : State :=
  let d := s.cur.trap.depth
  let s := s.traceHart s.cur 4 0 epc (BitVec.ofNat 64 cause)
  let s := if s.cur.wait.stall = some .loadData ∨ s.cur.wait.stall = some .hostData then s.abandonAccess else s
  let now := s.port.time
  let s := s.setFrame d ⟨BitVec.ofNat 8 cause, epc, tval, rpc, BitVec.ofNat 2 s.cur.base.level.code, vec, vec⟩
  s.onCur fun x =>
    let y := x.swapScratch tgt
    { y with base := { y.base with level := tgt, pc := x.entryOf tgt },
             trap := { y.trap with depth := d + 1, afterTret := false, times := y.trap.times.set (d % 2) now (Nat.mod_lt _ (by decide)) },
             wait := { y.wait with stall := none, barj := none }, links := [] }

/-- Take a trap (R227). `epc` and `rpc` are those of the table of R227. Where a write that it makes must wait (R361), the hart stalls and
nothing is taken yet. -/
def State.take (s : State) (cause : Nat) (tval epc rpc : Word) (vec : Bool) : State :=
  if s.cur.id.slot = 7 ∧ s.cur.handler.isSome then s.handlerFails cause
  else match s.cur.trapRoute cause with
    | .enter tgt c => if s.frameHeld then s.stalled .home else s.enterHandler tgt c tval epc rpc vec
    | .stop => s.onCur fun x => { x with occ := .stopped, wait := { x.wait with stall := none } }
    | .escalate => s.hartFails ⟨2, cause, s.cur.place.hix.toNat, epc, tval, some s.cur.id, 0, none⟩

/-- Take a pending trap or a held event of the hart (R225, R226): it stands as before where the taking must wait. -/
def State.takePending (s : State) (f : Traps → Traps) (cause : Nat) (tval epc : Word) (vec : Bool) : State :=
  let t := (s.onCur fun x => { x with trap := f x.trap }).take cause tval epc s.pc vec
  if t.cur.wait.stall.isSome then (s.keepRequests t).stalled .home else t

/-- A synchronous trap of the scalar instruction at the PC (R224, R227). -/
def State.scalarTrap (s : State) (cause : Nat) (tval : Word) : State := s.take cause tval s.pc s.pc false

/-! ### The checks of R290 -/

/-- Is the instruction barred in the hart's context (R290 test 4)? -/
def Hart.bars (x : Hart) (i : Instr) : Bool :=
  (x.handler.isSome && i.barredInHandler) || (x.trap.depth ≠ 0 && i.barredInTrap)

/-- Has the hart the features the instruction needs (R71)? -/
def Hart.hasFeatures (x : Hart) (i : Instr) : Bool := i.features &&& x.base.feat.toNat = i.features

/-- Is the instruction reserved to a level above the hart's (R290 test 5, R409)? -/
def Hart.denies (x : Hart) (i : Instr) : Bool :=
  match i with | .tlbi .. => x.base.level = .user | _ => false

/-- The cause that tests 3 to 5 of R290 raise, if any. -/
def Hart.refuses (x : Hart) (i : Instr) : Option Nat :=
  if !i.legal || !x.hasFeatures i || x.bars i then some 0x01
  else if x.denies i then some 0x03
  else none

/-- How a scalar instruction that began in `s0` ends: its effect, its trap, or its stall, which leaves only what it
asked for (R304, R319). -/
def finish (s0 : State) (r : Res Unit) : Out :=
  match r with
  | .ok _ s => .next s
  | .trap c t s => .next (s.scalarTrap c t)
  | .stall w s => .next ((s0.keepRequests s).stalled w)

/-- How an event of an engine that began in `s0` ends: a stall leaves it to be done again (R73). -/
def engineEvent (s0 : State) (who : Nat) (r : Res Unit) : Out :=
  match r with
  | .ok _ s => .next (s.clearAnswers who)
  | .trap _ _ s => .next (s.clearAnswers who)
  | .stall _ s => .next (s0.keepRequests s)

/-- A scalar instruction under the checks of R290. -/
def scalar (i : Instr) (s : State) (body : State → Res Unit) : Out :=
  match s.cur.refuses i with
  | some c => .next (s.scalarTrap c i.word)
  | none => finish s (body s)

/-- The Illegal Encoding of an operand check (R290 test 6). -/
def illegal {α : Type} (i : Instr) (s : State) : Res α := .trap 0x01 i.word s

/-! ### Instruction fetch (R189, R312) -/

/-- The word at the PC: through translation with X, from memory or from the core's L1, which may hold an older word
of the place: one that the core has fetched, or one that a write since the last flush of the line has replaced (R189, log 7). -/
def State.fetch (s : State) : Res Nat :=
  let cx := s.cur.cx
  (resolve s cx .fetch s.pc).bind fun p s =>
    (readSpot s cx s.pc p 4 .plain).bind fun w s =>
      if spaceOf p.loc ≠ .hbm then .ok w s
      else
        let k := s.core s.cur.id.coreId
        let s' := if k.l1.contains (p.loc, w) then s else s.onCore k.id fun k => { k with l1 := (p.loc, w) :: k.l1 }
        let (w, s') := s'.pickWord w
          ((k.l1.filter fun e => e.1 = p.loc).map (·.2) ++ s'.oldWords p 4 fun e => !e.gone s.cur.id.coreId p.loc)
        .ok w s'

end Sys2Proof.Machine
end

