-- ==== Sys2Proof/Machine/Alu.lean ====
section
/-! DEFINITION. The integer register and immediate instructions (R305-R309). -/

namespace Sys2Proof.Machine

/-- Write a result and go on to the next word. -/
def State.put (s : State) (d : Gpr) (v : Word) : State := (s.setG d v).advance

/-- 1 for true, 0 for false. -/
def boolW (p : Bool) : Word := if p then 1 else 0

/-- SHL: `bits(a × 2^n, 63, 0)` with the low six bits of the amount (R305). -/
def shlW (a : Word) (n : Nat) : Word := BitVec.ofNat 64 (a.toNat * 2 ^ (n % 64))

/-- SHR: `ua div 2^n` (R305). -/
def shrW (a : Word) (n : Nat) : Word := BitVec.ofNat 64 (a.toNat / 2 ^ (n % 64))

/-- SAR: `sa div 2^n`, the division of R7 (R305). -/
def sarW (a : Word) (n : Nat) : Word := wordOf (a.toInt / 2 ^ (n % 64))

/-- DIV (R306). -/
def divS (a b : Word) : Word := if b = 0 then -1 else wordOf (a.toInt.tdiv b.toInt)

/-- REM (R306). -/
def remS (a b : Word) : Word := if b = 0 then a else wordOf (a.toInt.tmod b.toInt)

/-- DIVU (R306). -/
def divU (a b : Word) : Word := if b = 0 then -1 else BitVec.ofNat 64 (a.toNat / b.toNat)

/-- REMU (R306). -/
def remU (a b : Word) : Word := if b = 0 then a else BitVec.ofNat 64 (a.toNat % b.toNat)

/-- The number of leading zero bits (R305). -/
def clzW (a : Word) : Nat := ((List.range 64).find? fun k => a.getLsbD (63 - k)).getD 64

/-- The number of trailing zero bits (R305). -/
def ctzW (a : Word) : Nat := ((List.range 64).find? fun k => a.getLsbD k).getD 64

/-- The number of one bits (R305). -/
def popcW (a : Word) : Nat := (List.range 64).countP fun k => a.getLsbD k

/-- The sign-extended immediate (R307). -/
def immS (i : BitVec 16) : Word := wordOf (sextOf i.toNat 16)

/-- ADD (R305). -/
def execAdd (d a b : Gpr) (s : State) : Out :=
  let a := s.g a
  let b := s.g b
  .next (s.put d (a + b))

/-- SUB (R305). -/
def execSub (d a b : Gpr) (s : State) : Out :=
  let a := s.g a
  let b := s.g b
  .next (s.put d (a - b))

/-- AND (R305). -/
def execAnd (d a b : Gpr) (s : State) : Out :=
  let a := s.g a
  let b := s.g b
  .next (s.put d (a &&& b))

/-- OR (R305). -/
def execOr (d a b : Gpr) (s : State) : Out :=
  let a := s.g a
  let b := s.g b
  .next (s.put d (a ||| b))

/-- XOR (R305). -/
def execXor (d a b : Gpr) (s : State) : Out :=
  let a := s.g a
  let b := s.g b
  .next (s.put d (a ^^^ b))

/-- ANDN (R305). -/
def execAndn (d a b : Gpr) (s : State) : Out :=
  let a := s.g a
  let b := s.g b
  .next (s.put d (a &&& ~~~b))

/-- SHL (R305). -/
def execShl (d a b : Gpr) (s : State) : Out :=
  let a := s.g a
  let b := s.g b
  .next (s.put d (shlW a b.toNat))

/-- SHR (R305). -/
def execShr (d a b : Gpr) (s : State) : Out :=
  let a := s.g a
  let b := s.g b
  .next (s.put d (shrW a b.toNat))

/-- SAR (R305). -/
def execSar (d a b : Gpr) (s : State) : Out :=
  let a := s.g a
  let b := s.g b
  .next (s.put d (sarW a b.toNat))

/-- SLT (R305). -/
def execSlt (d a b : Gpr) (s : State) : Out :=
  let a := s.g a
  let b := s.g b
  .next (s.put d (boolW (a.toInt < b.toInt)))

/-- SLTU (R305). -/
def execSltu (d a b : Gpr) (s : State) : Out :=
  let a := s.g a
  let b := s.g b
  .next (s.put d (boolW (a.toNat < b.toNat)))

/-- MIN (R305). -/
def execMin (d a b : Gpr) (s : State) : Out :=
  let a := s.g a
  let b := s.g b
  .next (s.put d (if a.toInt < b.toInt then a else b))

/-- MAX (R305). -/
def execMax (d a b : Gpr) (s : State) : Out :=
  let a := s.g a
  let b := s.g b
  .next (s.put d (if a.toInt < b.toInt then b else a))

/-- MINU (R305). -/
def execMinu (d a b : Gpr) (s : State) : Out :=
  let a := s.g a
  let b := s.g b
  .next (s.put d (if a.toNat < b.toNat then a else b))

/-- MAXU (R305). -/
def execMaxu (d a b : Gpr) (s : State) : Out :=
  let a := s.g a
  let b := s.g b
  .next (s.put d (if a.toNat < b.toNat then b else a))

/-- MUL (R305). -/
def execMul (d a b : Gpr) (s : State) : Out :=
  let a := s.g a
  let b := s.g b
  .next (s.put d (a * b))

/-- MULH (R305). -/
def execMulh (d a b : Gpr) (s : State) : Out :=
  let a := s.g a
  let b := s.g b
  .next (s.put d (wordOf (a.toInt * b.toInt / 2 ^ 64)))

/-- MULHU (R305). -/
def execMulhu (d a b : Gpr) (s : State) : Out :=
  let a := s.g a
  let b := s.g b
  .next (s.put d (BitVec.ofNat 64 (a.toNat * b.toNat / 2 ^ 64)))

/-- DIV (R305, R306). -/
def execDiv (d a b : Gpr) (s : State) : Out :=
  let a := s.g a
  let b := s.g b
  .next (s.put d (divS a b))

/-- DIVU (R305, R306). -/
def execDivu (d a b : Gpr) (s : State) : Out :=
  let a := s.g a
  let b := s.g b
  .next (s.put d (divU a b))

/-- REM (R305, R306). -/
def execRem (d a b : Gpr) (s : State) : Out :=
  let a := s.g a
  let b := s.g b
  .next (s.put d (remS a b))

/-- REMU (R305, R306). -/
def execRemu (d a b : Gpr) (s : State) : Out :=
  let a := s.g a
  let b := s.g b
  .next (s.put d (remU a b))

/-- CLZ (R305). -/
def execClz (d a : Gpr) (s : State) : Out := .next (s.put d (BitVec.ofNat 64 (clzW (s.g a))))

/-- CTZ (R305). -/
def execCtz (d a : Gpr) (s : State) : Out := .next (s.put d (BitVec.ofNat 64 (ctzW (s.g a))))

/-- POPC (R305). -/
def execPopc (d a : Gpr) (s : State) : Out := .next (s.put d (BitVec.ofNat 64 (popcW (s.g a))))

/-- SEXT (R305); W 3 is unassigned. -/
def execSext (d a : Gpr) (w : BitVec 2) (s : State) : Out :=
  scalar (.sext d a w) s fun s => .ok () (s.put d (wordOf (sextOf (s.g a).toNat (8 * 2 ^ w.toNat))))

/-- ZEXT (R305); W 3 is unassigned. -/
def execZext (d a : Gpr) (w : BitVec 2) (s : State) : Out :=
  scalar (.zext d a w) s fun s => .ok () (s.put d (BitVec.ofNat 64 ((s.g a).toNat % 2 ^ (8 * 2 ^ w.toNat))))

/-- ADDI (R307). -/
def execAddi (d a : Gpr) (i : BitVec 16) (s : State) : Out := .next (s.put d (s.g a + immS i))

/-- ANDI (R307). -/
def execAndi (d a : Gpr) (i : BitVec 16) (s : State) : Out := .next (s.put d (s.g a &&& i.setWidth 64))

/-- ORI (R307). -/
def execOri (d a : Gpr) (i : BitVec 16) (s : State) : Out := .next (s.put d (s.g a ||| i.setWidth 64))

/-- XORI (R307). -/
def execXori (d a : Gpr) (i : BitVec 16) (s : State) : Out := .next (s.put d (s.g a ^^^ i.setWidth 64))

/-- SLTI (R307). -/
def execSlti (d a : Gpr) (i : BitVec 16) (s : State) : Out := .next (s.put d (boolW ((s.g a).toInt < (immS i).toInt)))

/-- SLTUI (R307). -/
def execSltui (d a : Gpr) (i : BitVec 16) (s : State) : Out := .next (s.put d (boolW ((s.g a).toNat < (immS i).toNat)))

/-- SHLI (R307). -/
def execShli (d a : Gpr) (i : BitVec 6) (s : State) : Out := .next (s.put d (shlW (s.g a) i.toNat))

/-- SHRI (R307). -/
def execShri (d a : Gpr) (i : BitVec 6) (s : State) : Out := .next (s.put d (shrW (s.g a) i.toNat))

/-- SARI (R307). -/
def execSari (d a : Gpr) (i : BitVec 6) (s : State) : Out := .next (s.put d (sarW (s.g a) i.toNat))

/-- LDI (R308). -/
def execLdi (d : Gpr) (h : BitVec 2) (i : BitVec 16) (s : State) : Out :=
  .next (s.put d (BitVec.ofNat 64 (i.toNat * 2 ^ (16 * h.toNat))))

/-- LDI.K (R308): the other 48 bits are kept. -/
def execLdiK (d : Gpr) (h : BitVec 2) (i : BitVec 16) (s : State) : Out :=
  let x := (s.g d).toNat
  let k := 16 * h.toNat
  .next (s.put d (BitVec.ofNat 64 (x - bitsOf x (k + 15) k * 2 ^ k + i.toNat * 2 ^ k)))

/-- ADDPC (R309). -/
def execAddpc (d : Gpr) (i : BitVec 16) (s : State) : Out := .next (s.put d (s.pc + immS i))

end Sys2Proof.Machine
end

