-- ==== Sys2Proof/Machine/Digest.lean ====
section
/-! DEFINITION. Digests the manual names by their standards: SHA-512 (R63, R66, R69, R70), CRC-32C (R35); PRESUMED from FIPS 180-4 and
RFC 3720 (log 26). -/

namespace Sys2Proof.Machine

/-! ### SHA-512 -/

/-- The first `n` primes, by trial division. -/
def primesFrom : Nat → Nat → Nat → List Nat
  | 0, _, _ => []
  | fuel + 1, n, p =>
    if n = 0 then []
    else if (List.range p).all fun d => d < 2 || p % d ≠ 0 then p :: primesFrom fuel (n - 1) (p + 1)
    else primesFrom fuel n (p + 1)

/-- The greatest `x` with `x ^ k ≤ n`, bit by bit from bit `b`. -/
def rootOf (k n : Nat) : Nat → Nat → Nat
  | 0, x => x
  | b + 1, x => rootOf k n b (if (x + 2 ^ b) ^ k ≤ n then x + 2 ^ b else x)

/-- The round constants: the first 64 bits of the fractions of the cube roots of the first 80 primes. -/
def shaConstants : List Word := (primesFrom 410 80 2).map fun p => BitVec.ofNat 64 (rootOf 3 (p * 2 ^ 192) 67 0)

/-- The initial hash value: those of the square roots of the first 8 primes. -/
def shaInit : List Word := (primesFrom 20 8 2).map fun p => BitVec.ofNat 64 (rootOf 2 (p * 2 ^ 128) 67 0)

/-- The padding of a message. -/
def shaPad (m : List Byte) : List Byte :=
  let n := m.length
  let zeros := (111 + 128 - n % 128) % 128
  m ++ [0x80] ++ List.replicate zeros 0 ++ ((List.range 16).map fun i => BitVec.ofNat 8 (8 * n / 256 ^ (15 - i)))

/-- Big-endian 64-bit words. -/
def shaWords : Nat → List Byte → List Word
  | 0, _ => []
  | n + 1, bs => BitVec.ofNat 64 ((bs.take 8).foldl (fun a b => a * 256 + b.toNat) 0) :: shaWords n (bs.drop 8)

/-- The message schedule, the newest word first. -/
def shaSchedule (w : List Word) : Nat → List Word
  | 0 => w.reverse
  | n + 1 =>
    let r := shaSchedule w n
    let g (i : Nat) : Word := r.getD i 0
    let s0 := (g 14).rotateRight 1 ^^^ (g 14).rotateRight 8 ^^^ (g 14) >>> 7
    let s1 := (g 1).rotateRight 19 ^^^ (g 1).rotateRight 61 ^^^ (g 1) >>> 6
    (g 15 + s0 + g 6 + s1) :: r

/-- One round. -/
def shaRound (v : List Word) (kw : Word × Word) : List Word :=
  match v with
  | [a, b, c, d, e, f, g, h] =>
    let t1 := h + (e.rotateRight 14 ^^^ e.rotateRight 18 ^^^ e.rotateRight 41) + ((e &&& f) ^^^ (~~~e &&& g)) + kw.1 + kw.2
    let t2 := (a.rotateRight 28 ^^^ a.rotateRight 34 ^^^ a.rotateRight 39) + ((a &&& b) ^^^ (a &&& c) ^^^ (b &&& c))
    [t1 + t2, a, b, c, d + t1, e, f, g]
  | v => v

/-- One block of 128 bytes. -/
def shaBlock (h : List Word) (block : List Byte) : List Word :=
  let w := (shaSchedule (shaWords 16 block) 64).reverse
  h.zipWith (· + ·) ((shaConstants.zip w).foldl shaRound h)

/-- `n` blocks. -/
def shaBlocks (h : List Word) : Nat → List Byte → List Word
  | 0, _ => h
  | n + 1, bs => shaBlocks (shaBlock h (bs.take 128)) n (bs.drop 128)

/-- SHA-512: 64 bytes. -/
def sha512 (m : List Byte) : List Byte :=
  let p := shaPad m
  (shaBlocks shaInit (p.length / 128) p).flatMap fun w => (List.range 8).map fun i => BitVec.ofNat 8 (w.toNat / 256 ^ (7 - i))

/-! ### CRC-32C -/

/-- One bit of the reflected CRC-32C. -/
def crcBit (c : Nat) : Nat := if c % 2 = 1 then c / 2 ^^^ 0x82F63B78 else c / 2

/-- One byte. -/
def crcByte (c : Nat) (b : Byte) : Nat := (List.range 8).foldl (fun c _ => crcBit c) (c ^^^ b.toNat)

/-- CRC-32C of bytes. -/
def crc32c (bs : List Byte) : Nat := bs.foldl crcByte 0xFFFFFFFF ^^^ 0xFFFFFFFF

end Sys2Proof.Machine
end

