-- ==== Sys2Proof/Machine/Crypto.lean ====
section
/-! DEFINITION. The cryptography the manual names by its standards (R59, R63, R66, R69, R70): HKDF-SHA-512 (RFC 5869), X25519 (RFC 7748),
the inverse of AES-256 (FIPS 197) with the key wrap of SP 800-38F, Ed25519 (RFC 8032); PRESUMED from those texts (log 26). -/

namespace Sys2Proof.Machine

/-- Bytes cut or filled with zeros to a length. -/
def fit (n : Nat) (bs : List Byte) : List Byte := bs.take n ++ List.replicate (n - bs.length) 0

/-! ### HKDF-SHA-512 -/

/-- HMAC-SHA-512 with a key of at most one block. -/
def hmac (key m : List Byte) : List Byte :=
  let k := fit 128 key
  sha512 (k.map (· ^^^ 0x5C) ++ sha512 (k.map (· ^^^ 0x36) ++ m))

/-- The first 32 bytes of HKDF-SHA-512 with an empty salt. -/
def hkdf (ikm info : List Byte) : List Byte := (hmac (hmac [] ikm) (info ++ [1])).take 32

/-! ### The field of 2^255 - 19 and X25519 -/

/-- The prime. -/
def p25519 : Nat := 2 ^ 255 - 19

/-- `b ^ e` modulo `p`, for an exponent of at most `n` bits. -/
def powMod (p b : Nat) : Nat → Nat → Nat
  | 0, _ => 1
  | n + 1, e =>
    let h := powMod p (b * b % p) n (e / 2)
    if e % 2 = 1 then b * h % p else h

/-- The inverse in the field. -/
def inv25519 (a : Nat) : Nat := powMod p25519 a 255 (p25519 - 2)

/-- Difference in the field. -/
def sub25519 (a b : Nat) : Nat := (a + (p25519 - b % p25519)) % p25519

/-- A scalar with the bits of RFC 7748 set and cleared. -/
def clampScalar (k : Nat) : Nat := k % 2 ^ 254 / 8 * 8 + 2 ^ 254

/-- One rung of the ladder over (x2, z2, x3, z3), for one bit of the scalar. -/
def rung25519 (x1 : Nat) (bit : Bool) (v : Nat × Nat × Nat × Nat) : Nat × Nat × Nat × Nat :=
  let p := p25519
  let swap (v : Nat × Nat × Nat × Nat) : Nat × Nat × Nat × Nat := if bit then (v.2.2.1, v.2.2.2, v.1, v.2.1) else v
  let (x2, z2, x3, z3) := swap v
  let a := (x2 + z2) % p
  let b := sub25519 x2 z2
  let c := (x3 + z3) % p
  let d := sub25519 x3 z3
  let aa := a * a % p
  let bb := b * b % p
  let e := sub25519 aa bb
  let da := d * a % p
  let cb := c * b % p
  let u := (da + cb) % p
  let w := sub25519 da cb
  swap (aa * bb % p, e * ((aa + 121665 * e) % p) % p, u * u % p, x1 * (w * w % p) % p)

/-- The ladder, from bit `n - 1` down. -/
def ladder25519 (k x1 : Nat) : Nat → Nat × Nat × Nat × Nat → Nat × Nat × Nat × Nat
  | 0, v => v
  | n + 1, v => ladder25519 k x1 n (rung25519 x1 (k.testBit n) v)

/-- X25519 of a scalar and a coordinate, 32 bytes each. -/
def x25519 (k u : List Byte) : List Byte :=
  let x1 := ofBytes (fit 32 u) % 2 ^ 255 % p25519
  let v := ladder25519 (clampScalar (ofBytes (fit 32 k))) x1 255 (1, 0, x1, 1)
  toBytes 32 (v.1 * inv25519 v.2.1 % p25519)

/-! ### AES-256, decryption -/

/-- Product in the field of 2^8. -/
def gmul (a b : Nat) : Nat :=
  ((List.range 8).foldl (init := (0, a)) fun (r, x) i =>
    (if b.testBit i then r ^^^ x else r, if x ≥ 128 then (2 * x) ^^^ 0x11B else 2 * x)).1

/-- The inverse in the field of 2^8, 0 of 0: the 254th power. -/
def ginv (a : Nat) : Nat :=
  ((List.range 7).foldl (init := (1, a)) fun (r, x) _ => (gmul r (gmul x x), gmul x x)).1

/-- The S-box. -/
def sbox (a : Nat) : Nat :=
  let b := ginv a
  let rot (k : Nat) : Nat := b * 2 ^ k % 256 + b / 2 ^ (8 - k)
  b ^^^ rot 1 ^^^ rot 2 ^^^ rot 3 ^^^ rot 4 ^^^ 0x63

/-- The inverse S-box. -/
def invSbox (a : Nat) : Nat :=
  let rot (k : Nat) : Nat := a * 2 ^ k % 256 + a / 2 ^ (8 - k)
  ginv (rot 1 ^^^ rot 3 ^^^ rot 6 ^^^ 0x05)

/-- Sum of byte strings. -/
def xorBytes (a b : List Nat) : List Nat := a.zipWith (· ^^^ ·) b

/-- The key schedule, words of 4 bytes, the newest first: `n` further words after the first 8. -/
def aesSchedule (key : List Nat) : Nat → List (List Nat)
  | 0 => ((List.range 8).map fun i => (key.drop (4 * i)).take 4).reverse
  | n + 1 =>
    let r := aesSchedule key n
    let t := r.getD 0 []
    let i := n + 8
    let t := if i % 8 = 0 then xorBytes ((t.drop 1 ++ t.take 1).map sbox) [powMod 0x10000 2 4 (i / 8 - 1), 0, 0, 0]
      else if i % 8 = 4 then t.map sbox else t
    xorBytes (r.getD 7 []) t :: r

/-- The 15 round keys, the last first. -/
def aesRoundKeys (key : List Nat) : List (List Nat) :=
  let w := aesSchedule key 52
  (List.range 15).map fun k => w.getD (4 * k + 3) [] ++ w.getD (4 * k + 2) [] ++ w.getD (4 * k + 1) [] ++ w.getD (4 * k) []

/-- InvShiftRows and InvSubBytes. -/
def aesUnshift (b : List Nat) : List Nat :=
  (List.range 16).map fun i => invSbox (b.getD ((i + 16 - 4 * (i % 4)) % 16) 0)

/-- InvMixColumns. -/
def aesUnmix (b : List Nat) : List Nat :=
  (List.range 16).map fun i =>
    let c (k : Nat) : Nat := b.getD (i / 4 * 4 + (i + k) % 4) 0
    gmul (c 0) 14 ^^^ gmul (c 1) 11 ^^^ gmul (c 2) 13 ^^^ gmul (c 3) 9

/-- One block of 16 bytes, with the round keys, the last first. -/
def aesDecrypt (keys : List (List Nat)) (b : List Nat) : List Nat :=
  match keys with
  | [] => b
  | k :: ks =>
    let b := ks.dropLast.foldl (init := xorBytes b k) fun b k => aesUnmix (xorBytes (aesUnshift b) k)
    xorBytes (aesUnshift b) (ks.getLastD [])

/-- A number as 8 bytes, the most significant first. -/
def bigEndian8 (t : Nat) : List Nat := (List.range 8).map fun i => t / 256 ^ (7 - i) % 256

/-- The steps of the unwrapping with `n` semiblocks, from step `t` down: the check value and the semiblocks. -/
def unwrapSteps (keys : List (List Nat)) (n : Nat) : Nat → List Nat → List (List Nat) → List Nat × List (List Nat)
  | 0, a, r => (a, r)
  | t + 1, a, r =>
    let i := t % n
    let b := aesDecrypt keys (xorBytes a (bigEndian8 (t + 1)) ++ r.getD i [])
    unwrapSteps keys n t (b.take 8) (r.set i (b.drop 8))

/-- The unwrapping of 72 bytes under a key of 32 bytes: 64 bytes, or none where the integrity check fails. -/
def unwrapKw (kek wrapped : List Byte) : Option (List Byte) :=
  let c := wrapped.map (·.toNat)
  let r := unwrapSteps (aesRoundKeys (kek.map (·.toNat))) 8 48 (c.take 8) ((List.range 8).map fun i => (c.drop (8 * i + 8)).take 8)
  if r.1 = List.replicate 8 0xA6 then some (r.2.flatten.map (BitVec.ofNat 8)) else none

/-! ### Ed25519 -/

/-- The order of the base point. -/
def l25519 : Nat := 2 ^ 252 + 27742317777372353535851937790883648493

/-- The constant of the curve. -/
def d25519 : Nat := (p25519 - 121665) * inv25519 121666 % p25519

/-- A point in extended coordinates (X, Y, Z, T). -/
abbrev EdPoint := Nat × Nat × Nat × Nat

/-- The sum of two points. -/
def edAdd (a b : EdPoint) : EdPoint :=
  let p := p25519
  let (x1, y1, z1, t1) := a
  let (x2, y2, z2, t2) := b
  let m := sub25519 y1 x1 * sub25519 y2 x2 % p
  let n := (y1 + x1) * (y2 + x2) % p
  let c := 2 * t1 * (t2 * d25519 % p) % p
  let d := 2 * z1 * z2 % p
  let e := sub25519 n m
  let f := sub25519 d c
  let g := (d + c) % p
  let h := (n + m) % p
  (e * f % p, g * h % p, f * g % p, e * h % p)

/-- The multiple of a point by a scalar of at most `n` bits. -/
def edMul : Nat → Nat → EdPoint → EdPoint
  | 0, _, _ => (0, 1, 1, 0)
  | n + 1, k, q =>
    let r := edMul n (k / 2) (edAdd q q)
    if k % 2 = 1 then edAdd q r else r

/-- The base point. -/
def edBase : EdPoint :=
  let x := 15112221349535400772501151409588531511454012693041857206046113283949847762202
  let y := 46316835694926478169428394003475163141307993866256225615783033603165251855960
  (x, y, 1, x * y % p25519)

/-- A point as 32 bytes. -/
def edBytes (q : EdPoint) : List Byte :=
  let z := inv25519 q.2.2.1
  toBytes 32 (q.2.1 * z % p25519 + q.1 * z % p25519 % 2 * 2 ^ 255)

/-- The scalar and the prefix of a secret of 32 bytes. -/
def edSecret (secret : List Byte) : Nat × List Byte :=
  let h := sha512 (fit 32 secret)
  (clampScalar (ofBytes (h.take 32)), h.drop 32)

/-- The public key of a secret. -/
def edPublic (secret : List Byte) : List Byte := edBytes (edMul 255 (edSecret secret).1 edBase)

/-- The signature of a message. -/
def edSign (secret m : List Byte) : List Byte :=
  let (a, pre) := edSecret secret
  let r := ofBytes (sha512 (pre ++ m)) % l25519
  let R := edBytes (edMul 253 r edBase)
  let k := ofBytes (sha512 (R ++ edPublic secret ++ m)) % l25519
  R ++ toBytes 32 ((r + k * a) % l25519)

end Sys2Proof.Machine
end

