-- ==== Sys2Proof/Machine/Numbers.lean ====
section
/-! DEFINITION. Number formats and arithmetic (R240-R257): the values of encodings, the one rounding of R246, the
operations on exact values, conversions. Numbers are exact dyadics, so nothing is lost before the rounding. -/

namespace Sys2Proof.Machine

/-! ### Flags (R248, R249) -/

/-- A set of exception flags, as in FLAGS: NX, UF, OF, DZ, NV from bit 0. -/
abbrev FlagSet := BitVec 5

def flagNX : FlagSet := 1
def flagUF : FlagSet := 2
def flagOF : FlagSet := 4
def flagDZ : FlagSet := 8
def flagNV : FlagSet := 16

/-! ### Formats (R242-R244) -/

/-- The code of a format (R240). -/
def fmtCode : Fmt → Nat
  | .i8 => 0 | .i16 => 1 | .i32 => 2 | .i64 => 3 | .i4 => 4 | .e2m1 => 5 | .e4m3 => 6 | .e5m2 => 7 | .f16 => 8 | .bf16 => 9
  | .f32 => 10 | .f64 => 11 | .e8m0 => 12

/-- Exponent bits. -/
def expBits : Fmt → Nat
  | .e2m1 => 2 | .e4m3 => 4 | .e5m2 => 5 | .f16 => 5 | .bf16 => 8 | .f32 => 8 | .f64 => 11 | _ => 8

/-- Mantissa bits. -/
def manBits : Fmt → Nat
  | .e2m1 => 1 | .e4m3 => 3 | .e5m2 => 2 | .f16 => 10 | .bf16 => 7 | .f32 => 23 | .f64 => 52 | _ => 0

/-- The exponent bias. -/
def bias (f : Fmt) : Nat := match f with | .e2m1 => 1 | _ => 2 ^ (expBits f - 1) - 1

/-- Has the format infinities (R242)? -/
def hasInf : Fmt → Bool
  | .e5m2 | .f16 | .bf16 | .f32 | .f64 => true | _ => false

/-- The encoding of +infinity. -/
def infEnc (f : Fmt) : Nat := (2 ^ expBits f - 1) * 2 ^ manBits f

/-- The encoding of the largest finite value (R242). -/
def maxEnc (f : Fmt) : Nat := match f with | .e4m3 => 0x7E | .e2m1 => 7 | _ => infEnc f - 1

/-- The canonical NaN (R252); E2M1 has none and delivers +0. -/
def nanEnc (f : Fmt) : Nat :=
  match f with | .e2m1 => 0 | .e4m3 => 0x7F | .e8m0 => 0xFF | _ => infEnc f + 2 ^ (manBits f - 1)

/-- The sign bit of a format. -/
def signBit (f : Fmt) : Nat := 2 ^ (f.width - 1)

/-- What an encoding stands for: a NaN, an infinity, or the number `(-1)^neg × m × 2^e`. -/
inductive Val where
  | nan (signalling : Bool)
  | inf (neg : Bool)
  | fin (neg : Bool) (m : Nat) (e : Int)
  deriving DecidableEq, Repr

/-- `val(b, f)` for a floating-point format or E8M0 (R243, R244). -/
def valOf (f : Fmt) (b : Nat) : Val :=
  match f with
  | .e8m0 => if b % 256 = 255 then .nan false else .fin false 1 ((b % 256 : Nat) - 127)
  | _ =>
    let neg := b.testBit (f.width - 1)
    let x := b / 2 ^ manBits f % 2 ^ expBits f
    let m := b % 2 ^ manBits f
    if x = 0 then .fin neg m (1 - bias f - manBits f)
    else if x = 2 ^ expBits f - 1 ∧ hasInf f then
      (if m = 0 then .inf neg else .nan (!m.testBit (manBits f - 1)))
    else if f = .e4m3 ∧ x = 15 ∧ m = 7 then .nan false
    else .fin neg (m + 2 ^ manBits f) (x - bias f - manBits f)

/-- The value of an integer encoding (R241). -/
def intVal (f : Fmt) (unsigned : Bool) (b : Nat) : Int :=
  if unsigned then ((b % 2 ^ f.width : Nat) : Int) else sextOf b f.width

/-! ### Rounding (R245, R246) -/

/-- `x ÷ 2^s` rounded to an integer, for `x = m` plus a fraction below 1 that is not 0 when `sticky`; and whether that
changed the value. Modes: 0 RNE, 1 RTZ, 2 RDN, 3 RUP. -/
def roundShift (rm : Nat) (neg : Bool) (m : Nat) (sticky : Bool) (s : Int) : Nat × Bool :=
  if s ≤ 0 then (m * 2 ^ s.natAbs, sticky)
  else
    let n := m / 2 ^ s.natAbs
    let r := m % 2 ^ s.natAbs
    let half := 2 ^ (s.natAbs - 1)
    let inexact := r ≠ 0 || sticky
    let up := match rm with
      | 0 => r > half || (r = half && (sticky || n % 2 = 1))
      | 1 => false
      | 2 => neg && inexact
      | _ => !neg && inexact
    (if up then n + 1 else n, inexact)

/-- An overflow's result (R246): infinity, or the largest finite value. -/
def ovfEnc (f : Fmt) (rm : Nat) (neg : Bool) : Nat :=
  if !hasInf f then maxEnc f
  else match rm with
    | 0 => infEnc f
    | 1 => maxEnc f
    | 2 => if neg then infEnc f else maxEnc f
    | _ => if neg then maxEnc f else infEnc f

/-- `round` of R246 for a number that is not 0, `(-1)^neg × (m + fraction) × 2^e`: the encoding and the flags. -/
def roundTo (f : Fmt) (rm : Nat) (neg : Bool) (m : Nat) (e : Int) (sticky : Bool) : Nat × FlagSet :=
  let eu : Int := (Nat.log2 m : Int) + e
  let ex := max eu (1 - (bias f : Int))
  let (n, nx) := roundShift rm neg m sticky (ex - manBits f - e)
  let (n', _) := roundShift rm neg m sticky (eu - manBits f - e)
  let tiny := (Nat.log2 n' : Int) + (eu - manBits f) < 1 - (bias f : Int)
  let enc := (ex + bias f - 1).toNat * 2 ^ manBits f + n
  let sign := if neg then signBit f else 0
  if enc > maxEnc f then (sign + ovfEnc f rm neg, flagOF ||| flagNX)
  else (sign + enc, (if nx then flagNX else 0) ||| (if nx && tiny then flagUF else 0))

/-- A result before it is rounded: invalid, a NaN without a flag, a division by zero's infinity, an infinity, a zero,
a number. -/
inductive Exact where
  | invalid
  | quiet
  | pole (neg : Bool)
  | inf (neg : Bool)
  | zero (neg : Bool)
  | num (neg : Bool) (m : Nat) (e : Int) (sticky : Bool)
  deriving DecidableEq, Repr

/-- Deliver a result in a format (R246-R248, R252). An infinity in a format without one is R254's: the largest finite
value, with NV; so is a NaN in E2M1. -/
def deliver (f : Fmt) (rm : Nat) : Exact → Nat × FlagSet
  | .invalid => (nanEnc f, flagNV)
  | .quiet => (nanEnc f, if f = .e2m1 then flagNV else 0)
  | .pole neg => ((if neg then signBit f else 0) + (if hasInf f then infEnc f else maxEnc f), flagDZ)
  | .inf neg => ((if neg then signBit f else 0) + (if hasInf f then infEnc f else maxEnc f), if hasInf f then 0 else flagNV)
  | .zero neg => (if neg then signBit f else 0, 0)
  | .num neg m e sticky => if m = 0 then (if neg then signBit f else 0, 0) else roundTo f rm neg m e sticky

/-- A signed number `z × 2^e`. -/
def Exact.ofInt (z : Int) (e : Int) (zeroNeg : Bool) : Exact :=
  if z = 0 then .zero zeroNeg else .num (z < 0) z.natAbs e false

/-! ### Operations on values (R247, R248, R253) -/

/-- The NaN rule of R253 for operands: a signalling one raises NV. -/
def nanOf (xs : List Val) : Option Exact :=
  if xs.any (· = .nan true) then some .invalid
  else if xs.any (· = .nan false) then some .quiet
  else none

/-- The negation. -/
def Val.neg : Val → Val
  | .nan q => .nan q | .inf n => .inf !n | .fin n m e => .fin (!n) m e

/-- `(-1)^neg × m × 2^e` in units of `2^u`, for `u ≤ e`. -/
def unitsOf (neg : Bool) (m : Nat) (e u : Int) : Int := (if neg then -1 else 1) * ((m * 2 ^ (e - u).toNat : Nat) : Int)

/-- A sum of numbers (R247): an exact zero has the sign of both zeros, else it is +0, or -0 in RDN. -/
def sumFin (rm : Nat) (n1 : Bool) (m1 : Nat) (e1 : Int) (n2 : Bool) (m2 : Nat) (e2 : Int) : Exact :=
  let u := min e1 e2
  let zn := if m1 = 0 ∧ m2 = 0 ∧ n1 = n2 then n1 else rm = 2
  Exact.ofInt (unitsOf n1 m1 e1 u + unitsOf n2 m2 e2 u) u zn

/-- x + y. -/
def addV (rm : Nat) (x y : Val) : Exact :=
  match nanOf [x, y] with
  | some r => r
  | none => match x, y with
    | .inf a, .inf b => if a = b then .inf a else .invalid
    | .inf a, _ => .inf a
    | _, .inf b => .inf b
    | .fin n1 m1 e1, .fin n2 m2 e2 => sumFin rm n1 m1 e1 n2 m2 e2
    | _, _ => .quiet

/-- x × y, exact. -/
def mulV (x y : Val) : Exact :=
  match nanOf [x, y] with
  | some r => r
  | none => match x, y with
    | .inf a, .inf b => .inf (a != b)
    | .inf a, .fin n m _ => if m = 0 then .invalid else .inf (a != n)
    | .fin n m _, .inf b => if m = 0 then .invalid else .inf (n != b)
    | .fin n1 m1 e1, .fin n2 m2 e2 => if m1 * m2 = 0 then .zero (n1 != n2) else .num (n1 != n2) (m1 * m2) (e1 + e2) false
    | _, _ => .quiet

/-- x × y + z with one rounding (R324, R248): 0 × ∞ is invalid whatever z is. -/
def fmaV (rm : Nat) (x y z : Val) : Exact :=
  let p := mulV x y
  if nanOf [x, y, z] = some .invalid ∨ (nanOf [x, y] = none ∧ p = .invalid) then .invalid
  else match nanOf [x, y, z] with
    | some r => r
    | none => match p, z with
      | .inf a, .inf b => if a = b then .inf a else .invalid
      | .inf a, _ => .inf a
      | _, .inf b => .inf b
      | .zero n1, .fin n2 m2 e2 => sumFin rm n1 0 e2 n2 m2 e2
      | .num n1 m1 e1 _, .fin n2 m2 e2 => sumFin rm n1 m1 e1 n2 m2 e2
      | _, _ => .quiet

/-- x ÷ y to `prec` bits and a sticky fraction. -/
def divV (prec : Nat) (x y : Val) : Exact :=
  match nanOf [x, y] with
  | some r => r
  | none => match x, y with
    | .inf _, .inf _ => .invalid
    | .inf a, .fin n _ _ => .inf (a != n)
    | .fin n _ _, .inf b => .zero (n != b)
    | .fin n1 m1 e1, .fin n2 m2 e2 =>
      if m2 = 0 then (if m1 = 0 then .invalid else .pole (n1 != n2))
      else if m1 = 0 then .zero (n1 != n2)
      else
        let k := prec + Nat.log2 m2
        .num (n1 != n2) (m1 * 2 ^ k / m2) (e1 - e2 - k) (m1 * 2 ^ k % m2 ≠ 0)
    | _, _ => .quiet

/-- The integer square root, by bits from `2^(k-1)` down. -/
def isqrtFrom (n : Nat) : Nat → Nat → Nat
  | 0, r => r
  | k + 1, r => isqrtFrom n k (if (r + 2 ^ k) * (r + 2 ^ k) ≤ n then r + 2 ^ k else r)

/-- The greatest `r` with `r² ≤ n`. -/
def isqrt (n : Nat) : Nat := isqrtFrom n (Nat.log2 n / 2 + 1) 0

/-- √(m × 2^e) to at least `prec` bits and a sticky fraction, for `m ≠ 0`. -/
def sqrtFin (prec : Nat) (m : Nat) (e : Int) : Exact :=
  let k := 2 * prec + (if (e - 2 * prec) % 2 = 0 then 0 else 1)
  let z := m * 2 ^ k
  let r := isqrt z
  .num false r ((e - k) / 2) (r * r ≠ z)

/-- √x (R321). -/
def sqrtV (prec : Nat) (x : Val) : Exact :=
  match nanOf [x] with
  | some r => r
  | none => match x with
    | .inf false => .inf false
    | .inf true => .invalid
    | .fin n m e => if m = 0 then .zero n else if n then .invalid else sqrtFin prec m e
    | .nan _ => .quiet

/-- Compare two numbers or infinities: negative, 0 or positive as x < y, x = y, x > y. -/
def cmpV (x y : Val) : Int :=
  match x, y with
  | .inf a, .inf b => if a = b then 0 else if a then -1 else 1
  | .inf a, _ => if a then -1 else 1
  | _, .inf b => if b then 1 else -1
  | .fin n1 m1 e1, .fin n2 m2 e2 => let u := min e1 e2; unitsOf n1 m1 e1 u - unitsOf n2 m2 e2 u
  | _, _ => 0

/-- Is the value a NaN? -/
def Val.isNan : Val → Bool
  | .nan _ => true | _ => false

/-- Is the value negative, -0 included? -/
def Val.isNeg : Val → Bool
  | .inf n => n | .fin n _ _ => n | .nan _ => false

/-- Minimum and maximum (R253): the encoding chosen; -0 orders below +0. -/
def minMaxEnc (f : Fmt) (wantMax : Bool) (a b : Nat) : Nat × FlagSet :=
  let x := valOf f a
  let y := valOf f b
  let fl : FlagSet := if x = .nan true ∨ y = .nan true then flagNV else 0
  if x.isNan && y.isNan then (nanEnc f, fl)
  else if x.isNan then (b % 2 ^ f.width, fl)
  else if y.isNan then (a % 2 ^ f.width, fl)
  else
    let c := cmpV x y
    let xLess := c < 0 || (c = 0 && x.isNeg && !y.isNeg)
    ((if xLess != wantMax then a else b) % 2 ^ f.width, fl)

/-- The comparison of R322: 0 EQ, 1 LT, 2 LE, 3 UN. -/
def compareV (c : Nat) (x y : Val) : Bool × FlagSet :=
  let nan := x.isNan || y.isNan
  let snan := x = .nan true || y = .nan true
  match c with
  | 0 => (!nan && cmpV x y = 0, if snan then flagNV else 0)
  | 1 => (!nan && cmpV x y < 0, if nan then flagNV else 0)
  | 2 => (!nan && cmpV x y ≤ 0, if nan then flagNV else 0)
  | _ => (nan, if snan then flagNV else 0)

/-- The class of an encoding, as a bit number (R323). -/
def classOf (f : Fmt) (b : Nat) : Nat :=
  match valOf f b with
  | .nan q => if q then 8 else 9
  | .inf n => if n then 0 else 7
  | .fin n m _ =>
    if m = 0 then (if n then 3 else 4)
    else if b / 2 ^ manBits f % 2 ^ expBits f = 0 then (if n then 2 else 5)
    else (if n then 1 else 6)

/-! ### Conversions (R254) -/

/-- Bits enough for a quotient or root of any format before its rounding. -/
def precOf (f : Fmt) : Nat := manBits f + 4

/-- A value as a result before rounding. -/
def Val.exact : Val → Exact
  | .nan true => .invalid | .nan false => .quiet | .inf n => .inf n
  | .fin n m e => if m = 0 then .zero n else .num n m e false

/-- Float to float, and E8M0 to float (R254). -/
def toFloat (f : Fmt) (rm : Nat) (x : Val) : Nat × FlagSet := deliver f rm x.exact

/-- Float to integer (R254). -/
def toInt (f : Fmt) (rm : Nat) (unsigned : Bool) (x : Val) : Nat × FlagSet :=
  let w := f.width
  let lo : Int := if unsigned then 0 else -(2 ^ (w - 1))
  let hi : Int := if unsigned then 2 ^ w - 1 else 2 ^ (w - 1) - 1
  match x with
  | .nan _ => (0, flagNV)
  | .inf n => (wrapTo (if n then lo else hi) w, flagNV)
  | .fin n m e =>
    let (z, nx) := roundShift rm n m false (-e)
    let z : Int := if n then -(z : Int) else z
    if z < lo then (wrapTo lo w, flagNV)
    else if hi < z then (wrapTo hi w, flagNV)
    else (wrapTo z w, if nx then flagNX else 0)

/-- Integer to float (R254): 0 gives +0. -/
def ofIntTo (f : Fmt) (rm : Nat) (z : Int) : Nat × FlagSet := deliver f rm (Exact.ofInt z 0 false)

/-- Anything to E8M0 (R254). -/
def toScale (x : Val) : Nat × FlagSet :=
  match x with
  | .fin false m e =>
    if m = 0 then (0xFF, flagNV)
    else
      let k : Int := (Nat.log2 m : Int) + e
      let c := max (-127) (min k 127)
      ((c + 127).toNat, if c = k ∧ m = 2 ^ Nat.log2 m then 0 else flagNX)
  | _ => (0xFF, flagNV)

/-- A conversion between any two formats (R254). -/
def convert (src dst : Fmt) (rm : Nat) (unsigned : Bool) (b : Nat) : Nat × FlagSet :=
  if src.isInt then
    let z := intVal src unsigned b
    if dst.isInt then (wrapTo z dst.width, 0)
    else if dst = .e8m0 then toScale (.fin (z < 0) z.natAbs 0)
    else ofIntTo dst rm z
  else
    let x := valOf src b
    if dst.isInt then toInt dst rm unsigned x
    else if dst = .e8m0 then toScale x
    else toFloat dst rm x

/-- x rounded to an integral value in its own format (R257 VFRINT). -/
def rintEnc (f : Fmt) (rm : Nat) (b : Nat) : Nat × FlagSet :=
  match valOf f b with
  | .fin n m e =>
    let (z, nx) := roundShift rm n m false (-e)
    if !nx then (b % 2 ^ f.width, 0)
    else if z = 0 then (if n then signBit f else 0, flagNX)
    else ((deliver f rm (.num n z 0 false)).1, flagNX)
  | x => deliver f rm x.exact

end Sys2Proof.Machine
end

