-- ==== Sys2Proof/Machine/Flags.lean ====
section
/-! DEFINITION. The merging of flags and element indices (R248-R251): contributions of a strip, their drop by a trim,
their merge at commit. -/

namespace Sys2Proof.Machine

/-- Which flag of a set the `k`-th index register records: NV, DZ, OF, UF, NX (R249). -/
def flagOfIndex (k : Nat) : Nat := 4 - k

/-- Lower the index of each flag of a set to `e` (R250). -/
def Eidx.note (x : Eidx) (e : Nat) (fl : FlagSet) : Eidx :=
  x.mapFinIdx fun k i _ => if fl.getLsbD (flagOfIndex k) ∧ e < i.toNat then BitVec.ofNat 32 e else i

/-- The merge by minimum (R217). -/
def Eidx.merge (x y : Eidx) : Eidx := x.zipWith (fun a b => if b.toNat < a.toNat then b else a) y

/-- The flags that an index set stands for. -/
def Eidx.flags (x : Eidx) : FlagSet :=
  BitVec.ofNat 5 ((List.range 5).foldl (fun a k => if (x.toList.getD k 0xFFFFFFFF) = 0xFFFFFFFF then a else a + 2 ^ flagOfIndex k) 0)

/-- Indices at or above a trimmed VL are dropped (R217, R220). -/
def Eidx.below (x : Eidx) (vl : Nat) : Eidx := x.map fun i => if i.toNat < vl then i else 0xFFFFFFFF

/-- `raise(e, fl)` of R293: a vector element's flags, pending in the strip. -/
def Strip.raise (t : Strip) (e : Nat) (fl : FlagSet) : Strip := if fl = 0 then t else { t with eidx := t.eidx.note e fl }

/-- Flags without an index, of a matrix instruction (R250). -/
def Strip.raiseBare (t : Strip) (fl : FlagSet) : Strip := { t with flags := t.flags ||| fl }

/-- The merge of a strip's pending flags and indices into FLAGS and EIDX (R217, R250). -/
def Fp.mergeStrip (p : Fp) (t : Strip) (vl : Nat) : Fp :=
  let idx := if t.trim then t.eidx.below vl else t.eidx
  { p with flags := p.flags ||| t.flags ||| idx.flags, eidx := p.eidx.merge idx }

end Sys2Proof.Machine
end

