-- ==== Sys2Proof/Machine/Strip.lean ====
section
/-! DEFINITION. Strips (R213-R221): opening, aborting, committing, the advance of streams (R178), the replay list, and
the geometry of a lease (R123, R124). All act on the hart in focus. -/

namespace Sys2Proof.Machine

/-! ### Geometry -/

/-- Elements of width `w` in an element group (R123). -/
def perGroup (w : Nat) : Nat := 128 / w

/-- The lanes of the hart's lease (R117). -/
def Hart.lanes (x : Hart) : Nat := 64 * x.lease.pods.length

/-- VLMAX at an element width (R124). -/
def Hart.vlmax (x : Hart) (w : Nat) : Nat := 256 * x.lease.pods.length * perGroup w

/-- VBL for a VL and a block length of 1 or 32 (R255). -/
def vblOf (vl : Nat) (blk : Bool) : Nat := if blk then (vl + 31) / 32 * 32 else vl

/-- The lane that holds an element (R123). -/
def Hart.laneOf (x : Hart) (w e : Nat) : Nat := if x.lanes = 0 then 0 else e / perGroup w % x.lanes

/-- The element width of an ESZ code (R176). -/
def eszWidth (esz : Nat) : Nat := match esz with | 0 => 4 | n => 4 * 2 ^ n

/-! ### Opening and aborting -/

/-- A strip that opens on the registers as they stand (R213, R214). -/
def Hart.freshStrip (x : Hart) (replay : List Replay) : Strip :=
  { replay := replay, opening := x.vec.regs, openVl := x.vec.vl, openVbl := x.vec.vbl, stores := [], charge := [], flags := 0,
    eidx := Eidx.clear, touched := [], named := [], trim := false, aborted := false, written := [], resets := [], ext := [], events := [] }

/-- Open a strip (R213, R219); one that follows a resumption may stand trimmed (R137). -/
def Hart.openStrip (x : Hart) (replay : List Replay) : Hart :=
  { x with vec := { x.vec with strip := some { x.freshStrip replay with trim := x.vec.reopen.getD false }, reopen := none, last := (0, 0) } }

/-- Is a strip open, or about to open again? -/
def Hart.stripOpen (x : Hart) : Bool := x.vec.strip.any (!·.aborted) || x.vec.reopen.isSome

/-- Has the hart reached a strip boundary (R136): no strip open, or one that stands aborted? -/
def Hart.atBoundary (x : Hart) : Bool :=
  match x.vec.strip with
  | none => true
  | some t => t.aborted

/-- The revocation stops the lease (R232 steps 1 to 3): clean at a boundary, else mid-strip. -/
def Hart.stopLease (x : Hart) (clean : Bool) : Hart :=
  match x.lease.draining with
  | none => x
  | some (_, cause) =>
    { x with wait := x.wait.noVwait, lease := { x.lease with draining := none, susp := some ⟨cause, !clean, x.lease.pods.length, none⟩ } }

/-! ### The extension area of a session (R384-R386) -/

/-- Where the counts of a cell lie (R384): Xc in bytes 0 and 1, Xp in bytes 2 and 3. -/
def Session.cellAddr (m : Session) (c : Nat × Nat × Nat) : Word :=
  m.area + BitVec.ofNat 64 (4 * ((c.1 * m.ml + c.2.1) * m.nl + c.2.2))

/-- The signed counts (Xc, Xp) of a word of the area. -/
def extPair (w : Nat) : Int × Int := (sextOf w 16, sextOf (w / 65536) 16)

/-- The word of two counts. -/
def extWord (xc xp : Int) : Nat := wrapTo xc 16 + wrapTo xp 16 * 65536

/-- The word that the session last wrote for a cell. -/
def Session.word (m : Session) (c : Nat × Nat × Nat) : Nat :=
  match m.cells.find? fun e => e.1 = c with | some e => e.2 | none => 0

/-- The mark of unpredictable counts (R386). -/
def badCounts : Nat := 2 ^ 32

/-- Note the word of a cell. -/
def Session.note (m : Session) (c : Nat × Nat × Nat) (w : Nat) : Session :=
  { m with cells := (c, w) :: m.cells.filter fun e => e.1 ≠ c }

/-- Note the word of a cell in the hart's session. -/
def State.noteExt (s : State) (c : Nat × Nat × Nat) (w : Nat) : State :=
  s.onCur fun x => { x with vec := { x.vec with session := x.vec.session.map fun m => m.note c w } }

/-- The bytes of the extension area from `va` on, page by page, that the hart in focus may write now. -/
def State.areaBytes (s : State) (cx : Ctx) (va : Nat) : Nat → List Nat
  | 0 => []
  | k + 1 =>
    let here := match s.placeOf cx (BitVec.ofNat 64 va) with
      | some loc => if spaceOf loc ≠ .host ∧ (s.check ⟨loc, cx.key, 2⟩ 16 true).isNone then (List.range 16).map (loc + ·) else []
      | none => []
    here ++ s.areaBytes cx (va + 16) k

/-- An access of the area has been refused: its contents become unpredictable, free values where the hart could write them (R386). -/
def State.spoilArea (s : State) (m : Session) : State := s.blur (s.areaBytes s.cur.cx m.area.toNat (m.ml * m.nl))

/-- Change the counts of cells, one after another; a refused access is dropped, its counts and the contents of the area are unpredictable
(R386); a migratable page stalls. -/
def changeExt (s : State) (m : Session) (f : Nat × Nat × Nat → Int × Int → Int × Int) : List (Nat × Nat × Nat) → Res Unit
  | [] => .ok () s
  | c :: cs =>
    match readMem s s.cur.cx (m.cellAddr c) 4 .plain with
    | .stall w s => .stall w s
    | .trap _ _ s => changeExt ((s.spoilArea m).noteExt c badCounts) m f cs
    | .ok w s =>
      let p := f c (extPair w)
      match writeMem s s.cur.cx (m.cellAddr c) 4 (extWord p.1 p.2) .plain with
      | .stall w s => .stall w s
      | .trap _ _ s => changeExt ((s.spoilArea m).noteExt c badCounts) m f cs
      | .ok _ s => changeExt (s.noteExt c (if w = m.word c then extWord p.1 p.2 else badCounts)) m f cs

/-- Write `k` times 8 bytes of zeros from an address on; refusals are dropped (R386): has there been one? -/
def zeroWords (s : State) (cx : Ctx) (va : Nat) (bad : Bool) : Nat → Res Bool
  | 0 => .ok bad s
  | k + 1 => match writeMem s cx (BitVec.ofNat 64 va) 8 0 .plain with
    | .stall w s => .stall w s
    | .trap _ _ s => zeroWords s cx (va + 8) true k
    | .ok _ s => zeroWords s cx (va + 8) bad k

/-- The pages of the area that hold the cells. -/
def Session.pages (m : Session) : List Nat := (m.cells.map fun e => (m.cellAddr e.1).toNat / 65536).eraseDups

/-- Zero the part of the area that lies in each of some pages (R369); a refusal leaves the area's contents unpredictable (R386). -/
def zeroPages (s : State) (m : Session) (bad : Bool) : List Nat → Res Unit
  | [] => .ok () (if bad then s.spoilArea m else s)
  | p :: ps =>
    let lo := max (p * 65536) m.area.toNat
    let hi := min ((p + 1) * 65536) (m.area.toNat + 16 * m.ml * m.nl)
    (zeroWords s s.cur.cx lo bad ((hi - lo) / 8)).bind fun bad s => zeroPages s m bad ps

/-- Close the session (R369, R370): the entries freed, the area zero, the tiles undefined, ML and NL 0. -/
def State.closeSession (s : State) : Res Unit :=
  match s.cur.vec.session with
  | none => .ok () s
  | some m => (zeroPages s m false m.pages).bind fun _ s =>
    .ok () (s.onCur fun x => { x with vec := { x.vec with
      session := none, marrow := [], regs := { x.vec.regs with w := Vector.replicate 4 Tile.undef } } })

/-- Is a row marked reset in the open strip (R383)? -/
def Strip.isReset (t : Strip) (c : Nat × Nat × Nat) : Bool := t.resets.contains (c.1, c.2.1)

/-- The hart in focus writes `n` entries more of its cluster's Marrow under its key slot (R62). -/
def State.marrowWritten (s : State) (n : Nat) : State :=
  let k := s.cur.base.key.toNat
  if n = 0 ∨ k = 0 then s
  else s.onCluster s.cur.lease.die s.cur.lease.clu fun c => { c with marrow := Table.set 0 c.marrow k (min 4096 (Table.get 0 c.marrow k + n)) }

/-- The commit of the counts in the Marrow (R383): entries of reset cells freed, pending ones added to committed ones. -/
def settleMarrow (t : Strip) (es : List MarrowEntry) : List MarrowEntry :=
  let keep := es.filter fun e => !e.pending && !t.isReset (e.tile, e.row, e.col)
  let add (acc : List MarrowEntry) (e : MarrowEntry) : List MarrowEntry :=
    if acc.any fun x => x.tile = e.tile && x.row = e.row && x.col = e.col then
      acc.map fun x => if x.tile = e.tile && x.row = e.row && x.col = e.col then { x with count := x.count + e.count } else x
    else acc ++ [{ e with pending := false }]
  ((es.filter (·.pending)).foldl add keep).filter fun e => e.count ≠ 0

/-- The commit of the counts in the extension area (R383). -/
def State.settleExt (s : State) (t : Strip) : Res Unit :=
  match s.cur.vec.session with
  | none => .ok () s
  | some m => changeExt s m (fun c p => ((if t.isReset c then 0 else p.1) + p.2, 0)) ((m.cells.map (·.1)).filter fun c => t.isReset c || t.ext.contains c)

/-- Abort the open strip (R218): registers, VL and VBL as at its opening, nothing performed, the replay list kept;
the links it made are cleared (R359); pending Marrow entries vanish (R383). -/
def Hart.abortStrip (x : Hart) : Hart :=
  match x.vec.strip with
  | none => x
  | some t =>
    if t.aborted then x
    else
      { x with vec := { x.vec with
                 regs := t.opening, vl := t.openVl, vbl := t.openVbl, aborts := satAdd x.vec.aborts 1
                 marrow := x.vec.marrow.filter fun e => !e.pending
                 strip := some { x.freshStrip t.replay with opening := t.opening, openVl := t.openVl, openVbl := t.openVbl,
                                                            aborted := true } }
               links := x.links.filter (!·.strip) }

/-- Abort (R218, R383) with its trace record (R270 KIND 3): the folded pending counts go to 0 first, which may stall. -/
def State.abortStrip (s : State) (cause : Nat) : Res Unit :=
  match s.cur.vec.strip with
  | none => .ok () s
  | some t =>
    if t.aborted then .ok () s
    else
      let r : Res Unit := match s.cur.vec.session with
        | none => .ok () s
        | some m => changeExt s m (fun _ p => (p.1, 0)) t.ext
      r.bind fun _ s => .ok () ((s.traceHart s.cur 3 (s.convoyNow s.cur).2 (s.convoyNow s.cur).1 (BitVec.ofNat 64 cause)).onCur Hart.abortStrip)

/-- The charge of the fullest lane (R215). -/
def Strip.buf (t : Strip) : Nat := t.charge.foldl (fun a c => max a c.2) 0

/-- STRIPST (R223). -/
def Hart.stripst (x : Hart) : Word :=
  let base := match x.vec.strip with
    | none => 0
    | some t => (if t.aborted then 0 else 1) + t.replay.length * 2 + (if t.trim then 16 else 0) + t.buf * 2 ^ 16
  BitVec.ofNat 64 (base + x.vec.resrep.toNat * 2 ^ 32 + x.vec.aborts.toNat * 2 ^ 48)

/-! ### Commit (R217) -/

/-- How an attempt to commit ends. -/
inductive Commit where
  | done (s : State)
  | refused (cause : Nat) (tval : Word) (s : State)
  | stall (why : Stall) (s : State)

/-- What a commit performs: with a trim, only what elements below VL did (R217, R220). -/
def Strip.kept (t : Strip) (vl : Nat) : Strip :=
  if t.trim then { t with stores := t.stores.filter (·.elem < vl), touched := t.touched.filter (·.elem < vl)
                          events := t.events.filter (·.1 < vl) }
  else t

/-- The key-slot and owner checks of the buffered stores, each claiming what is free (R217). -/
def checkStores (s : State) : List BufStore → Option (Nat × Word) × State
  | [] => (none, s)
  | b :: bs =>
    if b.lane.isSome then checkStores s bs
    else match s.ownerCheck ⟨b.loc, b.key, 2⟩ true with
      | some c => (some (c, b.va), s)
      | none =>
        let s := if spaceOf b.loc ≠ .host ∧ s.store.ownerOf b.loc = freeOwner then
            s.onStore fun st => { st with owners := Table.set freeOwner st.owners (ownerKey b.loc) b.key }
          else s
        checkStores s bs

/-- The lane-local byte address of a lane (R164). -/
def laneLoc (lane o : Nat) : Nat := lane * 8192 + o

/-- A byte of the lane-local stores; a byte not written since the lane was granted is undefined (R125). -/
def Vec.laneByte (v : Vec) (a : Nat) : Nat :=
  match Table.get 256 v.lanes a with
  | 256 => Config.freeLane (v.laneSeeds.getD (a / 8192) 0) a % 256
  | b => b

/-- `n` bytes of the lane-local stores, little-endian. -/
def Vec.laneRead (v : Vec) (a : Nat) : Nat → Nat
  | 0 => 0
  | n + 1 => v.laneByte a + 256 * v.laneRead (a + 1) n

/-- Write `n` bytes of the lane-local stores. -/
def laneWrite (t : Table Nat) (a : Nat) : Nat → Nat → Table Nat
  | 0, _ => t
  | n + 1, b => laneWrite (Table.set 256 t a (b % 256)) (a + 1) n (b / 256)

/-- Perform one buffered store (R217). -/
def State.performStore (s : State) (b : BufStore) : State :=
  match b.lane with
  | some l =>
    s.onCur fun x =>
      let a := laneLoc l b.loc
      let lanes := if b.width = 4 then laneWrite x.vec.lanes a 1 (setNibble (x.vec.laneByte a) b.bits b.high)
        else laneWrite x.vec.lanes a (b.width / 8) b.bits
      { x with vec := { x.vec with lanes := lanes } }
  | none =>
    let win := if spaceOf b.loc = .core then (if inWindow b.va ∧ b.va.toNat % 0x1000000 < 0x40000 then 0 else 1) else 2
    let p : Spot := ⟨b.loc, b.key, win⟩
    let o : Order := ⟨false, b.release, b.scope, false⟩
    if b.width = 4 then s.performNibble s.cur.cx p b.bits b.high o
    else s.performWrite s.cur.cx p (b.width / 8) b.bits o

/-- Stream `q` advances at commit (R178). -/
def Hart.advanceStream (x : Hart) (q : Nat) : Hart :=
  let old := x.qs.q[q % 16]'(Nat.mod_lt _ (by decide))
  let k := perGroup (eszWidth old.esz.toNat)
  let step := if old.space = 1 then (if x.lanes = 0 then 0 else k * ((x.vec.vbl + k * x.lanes - 1) / (k * x.lanes))) else x.vec.vl
  { x with qs := { x.qs with q := x.qs.q.set (q % 16) { old with idx := old.idx + BitVec.ofNat 64 step } (Nat.mod_lt _ (by decide)) } }

/-- Must a commit wait for the lock of R361: at the line of a store, or of a leaf whose bits it sets? -/
def State.commitLocked (s : State) (t : Strip) : Bool :=
  (t.stores.any fun b => b.lane.isNone && s.locked s.cur.cx b.loc)
    || t.touched.any fun p => s.adLocked s.cur.cx p.va ⟨p.loc, 0, 2⟩ p.wrote

/-- End the open strip by commit (R217). With no strip open, or one that stands aborted, nothing happens. The links made in the strip
outlive it; the events of its acquires count (R208, R274). -/
def State.commit (s : State) : Commit :=
  match s.cur.vec.strip with
  | none => .done s
  | some t0 =>
    if t0.aborted then .done s
    else
      let vl := s.cur.vec.vl
      let t := t0.kept vl
      let bs := t.stores
      if s.commitLocked t then .stall .home s
      else match checkStores s bs with
        | (some (c, va), s) =>
          match s.abortStrip c with
          | .stall w s => .stall w s
          | .trap _ _ s => .refused c va s
          | .ok _ s => .refused c va s
        | (none, s) =>
          let s := t.touched.foldl (init := s) fun s p => s.setAD s.cur.base.ptroot p.va ⟨p.loc, 0, 2⟩ p.wrote
          let s := ((bs.filter (!·.release)) ++ bs.filter (·.release)).foldl (init := s) State.performStore
          let s := t.events.foldl (init := s) fun s e => s.scopeEvent s.cur.id e.2.1 e.2.2
          match s.settleExt t with
          | .stall w s => .stall (if w = .lock then .home else w) s
          | .trap _ _ s => .done s
          | .ok _ s =>
            let s := s.traceHart s.cur 2 (s.convoyNow s.cur).2 (s.convoyNow s.cur).1 s.cur.stripst
            .done (s.onCur fun x =>
              let x := t.named.foldl (init := x) Hart.advanceStream
              { x with fp := x.fp.mergeStrip t vl
                       trap := { x.trap with bpctl := false }
                       links := x.links.map fun l => { l with strip := false }
                       vec := { x.vec with strip := none, marrow := settleMarrow t x.vec.marrow } })

/-- The convoy at the head of the vector queue waits (R183, R266). -/
def State.vectorStalls (s : State) (w : Stall) : State :=
  s.onCur fun x => { x with wait := { x.wait with vstall := some w } }

/-- A vector trap at the scalar instruction in focus, whose strip is over. A lease that drains stops there, clean, and the trap stays
pending until the resumption (R239); so it does where its taking must wait (R361). -/
def State.trapAtStrip (s : State) (cause : Nat) (tval : Word) : State :=
  let pending (s : State) : State := s.onCur fun x => { x with trap := { x.trap with vtrap := some ⟨BitVec.ofNat 8 cause, tval, x.base.pc⟩ } }
  if s.cur.lease.draining.isSome then ((pending s).onCur fun x => x.stopLease true).stalled .lease
  else
    let t := s.take cause tval s.pc s.pc true
    if t.cur.wait.stall.isSome then (pending (s.keepRequests t)).stalled .home else t

/-- A vector trap taken at a scalar instruction, which is its resume point (R216, R226, R391): the strip aborts, EPC
and RPC name the instruction (log 23). -/
def State.vectorTrapHere (s : State) (cause : Nat) (tval : Word) : Out :=
  match s.abortStrip cause with
  | .ok _ s' => .next (s'.trapAtStrip cause tval)
  | .trap _ _ s' => .next (s'.trapAtStrip cause tval)
  | .stall w s' => .next ((s.keepRequests s').stalled w)

/-- How an instruction ends a strip: VSETL, with what it does before a drained lease stops (R133); a commit point or
VCOMMIT, after which a strip opens again; VREL, which comes before a revocation (R133); TEXIT, which also comes before
a cancel request (R104). A revocation comes before a cancel request (R109). -/
inductive StripEnd where
  | setl (f : State → State)
  | again
  | rel
  | exit

/-- Steps 1 and 2 of R391: wait for the vector queue, end the strip by commit; then a cancel request lands (R108), or a
lease that drains stops (R232). A stall leaves the rest to be done again. -/
def endStrip (s : State) (how : StripEnd) (go : State → Out) : Out :=
  if s.cur.vec.queue ≠ [] then .next (s.stalled .earlierBlocks)
  else match s.commit with
    | .stall w s' => .next ((s.keepRequests s').stalled w)
    | .refused c t s' => .next (s'.trapAtStrip c t)
    | .done s' =>
      let wasOpen := s.cur.stripOpen
      let cancels := wasOpen && s'.cur.wait.cancel.isSome
      let drains := s'.cur.lease.draining.isSome || (s'.cur.wait.move.isSome && !cancels)
      match how with
      | .exit => go s'
      | .rel => if cancels then .next s'.cancelLands else go s'
      | .setl f =>
        if drains then .next (((f s').onCur fun x => x.stopLease true).stalled .lease)
        else if cancels then .next s'.cancelLands
        else go s'
      | .again =>
        if drains then
          let re := if wasOpen then some (s.cur.vec.reopen.getD false) else none
          .next ((s'.onCur fun x => ({ x with vec := { x.vec with reopen := re } }).stopLease true).stalled .lease)
        else if cancels then .next s'.cancelLands
        else go (if wasOpen then s'.onCur (·.openStrip []) else s')

/-! ### Commit points of the scalar side (R207, R219) -/

/-- A scalar commit point: its operand checks and its own stalls, then it waits for the earlier blocks (log 23), commits the open strip,
a new strip opens at once, and it performs. -/
def commitPoint (i : Instr) (s : State) (op : State → Res Unit) : Out :=
  match s.cur.refuses i with
  | some c => .next (s.scalarTrap c i.word)
  | none => match op s with
    | .trap c t _ => .next (s.scalarTrap c t)
    | .stall w s' => .next ((s.keepRequests s').stalled w)
    | .ok _ _ => endStrip s .again fun s => finish s (op s)

end Sys2Proof.Machine
end

