-- ==== Sys2Proof/Machine/Queues.lean ====
section
/-! DEFINITION. Stream registers (R176-R179), copy and fabric queues (R396, R397, R400), QFENCE (R210, R398) and sync
words (R180-R182, R399): the instructions, and the work of a copy entry. -/

namespace Sys2Proof.Machine

/-! ### Streams (R176, R177) -/

/-- A stream register of a hart. -/
def Hart.stream (x : Hart) (q : Nat) : Stream := x.qs.q[q % 16]'(Nat.mod_lt _ (by decide))

/-- Set a stream register. -/
def Hart.setStream (x : Hart) (q : Nat) (v : Stream) : Hart :=
  { x with qs := { x.qs with q := x.qs.q.set (q % 16) v (Nat.mod_lt _ (by decide)) } }

/-- The bytes of an element: 1 for a 4-bit one. -/
def Stream.bytes (q : Stream) : Nat := match q.esz.toNat with | 0 => 1 | n => 2 ^ (n - 1)

/-- Is a position at or beyond LEN (R177)? -/
def Stream.beyond (q : Stream) (p : Nat) : Bool := q.len ≠ 0 && q.len.toNat ≤ p

/-- The address of position `p` of a VIRT stream (R177). -/
def Stream.virt (q : Stream) (p : Nat) : Word :=
  let j := if q.esz = 0 then p / 2 else p
  let n := if q.esz = 0 then q.n1.toNat / 2 else q.n1.toNat
  wordOf (q.base.toNat + (j % n : Nat) * q.s1.toInt + (j / n : Nat) * q.s2.toInt)

/-- The byte of a LANE stream that holds element `e`, for `lanes` lanes (R177); its place is `IDX + u`. -/
def Stream.lane (q : Stream) (lanes e : Nat) : Int × Nat :=
  let k := perGroup (eszWidth q.esz.toNat)
  let u := e / (k * lanes) * k + e % k
  let i := q.idx.toNat + u
  (q.base.toNat + (if q.esz = 0 then i / 2 else i : Nat) * q.s1.toInt, i)

/-- The steps of one stride from an offset in a page of some size until the page is left; none for a stride of 0. -/
def leavesPage (size off : Nat) (stride : Int) : Option Nat :=
  if stride = 0 then none
  else if 0 < stride then some ((size - off + stride.toNat - 1) / stride.toNat)
  else some (off / (-stride).toNat + 1)

/-- The lesser of two numbers, either of which may be missing. -/
def lesser : Option Nat → Option Nat → Option Nat
  | some a, some b => some (min a b)
  | some a, none => some a
  | none, b => b

/-- The first position after `p` that lies in another page than `p`, whose page has some size (R177, R179): in the row of `p`, or in the
first row whose first or last position lies outside the page. -/
def Stream.turnsPage (q : Stream) (size p : Nat) : Option Nat :=
  let two := if q.esz = 0 then 2 else 1
  let n := max 1 (q.n1.toNat / two)
  let at_ (j : Nat) : Nat := (q.virt (j * two)).toNat
  let page := at_ (p / two) / size
  let here (j : Nat) : Bool := at_ j / size = page
  let rowFrom (j : Nat) : Option Nat := leavesPage size (at_ j % size) q.s1.toInt
  let j := p / two
  let row := (j / n + 1) * n
  let turn : Option Nat := match rowFrom j with
    | some k => if j + k < row then some (j + k) else none
    | none => none
  let later : Option Nat :=
    if !here row then some row
    else
      let off (j : Nat) : Option Nat := if here j then leavesPage size (at_ j % size) q.s2.toInt else some 0
      (lesser (off row) (off (row + n - 1))).bind fun k =>
        let first := row + k * n
        if here first then (rowFrom first).map (first + ·) else some first
  let found := match turn with | some j => some j | none => later
  match found with
  | some j => if q.beyond (j * two) then none else some (j * two)
  | none => none

/-- The size of the page of an address as a walk finds it now; 64 KiB where it finds no leaf. -/
def State.pageAt (s : State) (root : BitVec 56) (va : Nat) : Nat :=
  match walk s root va with | .leaf _ _ l => pageSize l | _ => 2 ^ 16

/-- Positions in the page of the next position and in the next two pages of the walk (R179). -/
def State.ahead (s : State) (root : BitVec 56) (q : Stream) : List Nat :=
  if !q.active || q.space ≠ 0 || q.beyond q.idx.toNat then []
  else
    let turn (p : Nat) : Option Nat := q.turnsPage (s.pageAt root (q.virt p).toNat) p
    let p := q.idx.toNat
    p :: (match turn p with
      | none => []
      | some p1 => p1 :: (turn p1).toList)

/-- The stream engine of a hart caches the leaves of those pages (R175, R179); it raises no trap and starts no service. -/
def State.walkStreams (s : State) (x : Hart) : State :=
  (x.qs.q.toList.flatMap fun q => (s.ahead x.base.ptroot q).map q.virt).foldl (init := s) fun s va =>
    if inWindow va || !canonical va then s
    else match walk s x.base.ptroot va.toNat with
      | .leaf _ e l => s.onStore fun st => st.cacheLeaf { x.cx with ahead := true } va.toNat e l
      | _ => s

/-- The stream engines of all harts walk ahead (R179). -/
def State.walkAhead (s : State) : State := s.harts.foldl State.walkStreams s

/-- A descriptor's rules (R176). -/
def Stream.ok (q : Stream) (rest : Nat) : Bool :=
  q.esz.toNat ≤ 4 && q.space.toNat ≤ 1 && rest = 0
    && (q.space ≠ 0 || (q.n1 ≠ 0 && (q.esz ≠ 0 || q.n1.toNat % 2 = 0)))
    && (q.esz ≠ 0 || q.len.toNat % 2 = 0)

/-- The stream of a descriptor's four words, active, IDX 0. -/
def Stream.ofWords (a b c d : Nat) : Stream :=
  { base := BitVec.ofNat 64 a, s1 := BitVec.ofNat 32 b, s2 := BitVec.ofNat 32 (b / 2 ^ 32), n1 := BitVec.ofNat 32 c
    len := BitVec.ofNat 32 (c / 2 ^ 32), esz := BitVec.ofNat 8 d, space := BitVec.ofNat 8 (d / 256), idx := 0, active := true }

/-- What QSET and QPOS do first (R395): wait for the vector queue; a stream named in the open strip is Illegal. -/
def withStream (i : Instr) (q : Nat) (s : State) (body : State → Res Unit) : Out :=
  scalar i s fun s =>
    if s.cur.vec.queue ≠ [] then .stall .earlierBlocks s
    else if s.cur.vec.strip.any fun t => !t.aborted && t.named.contains q then illegal i s
    else body s

/-- QSET (R176, R395). The host's answers stay until all 32 bytes are read. -/
def execQset (a : Gpr) (q : BitVec 4) (s : State) : Out :=
  let i := Instr.qset a q
  withStream i q.toNat s fun s =>
    let va := s.g a
    let cx := { s.cur.cx with keep := true }
    if va.toNat % 8 ≠ 0 then .trap 0x04 va s
    else
      (readMem s cx va 8 .plain).bind fun w0 s =>
      (readMem s cx (va + 8) 8 .plain).bind fun w1 s =>
      (readMem s cx (va + 16) 8 .plain).bind fun w2 s =>
      (readMem s cx (va + 24) 8 .plain).bind fun w3 s =>
        let v := Stream.ofWords w0 w1 w2 w3
        if v.ok (w3 / 65536) then .ok () ((s.onCur (·.setStream q.toNat v)).clearAnswers cx.who).advance
        else illegal i (s.clearAnswers cx.who)

/-- QSET.OFF (R395). -/
def execQsetOff (q : BitVec 4) (s : State) : Out :=
  withStream (.qsetOff q) q.toNat s fun s =>
    .ok () (s.onCur fun x => x.setStream q.toNat { x.stream q.toNat with active := false }).advance

/-- QPOS (R395). -/
def execQpos (d a : Gpr) (q : BitVec 4) (s : State) : Out :=
  withStream (.qpos d a q) q.toNat s fun s =>
    let old := (s.cur.stream q.toNat).idx
    let new := s.g a
    .ok () ((s.onCur fun x => x.setStream q.toNat { x.stream q.toNat with idx := new }).put d old)

/-- QPOS.RD (R395). -/
def execQposRd (d : Gpr) (q : BitVec 4) (s : State) : Out :=
  withStream (.qposRd d q) q.toNat s fun s => .ok () (s.put d (s.cur.stream q.toNat).idx)

/-! ### Sync words (R180-R182) -/

/-- The spot of a sync word: aligned to 16, in core or chip scratchpad (R180); then its owner. One in core scratchpad is reached as
through the cluster window, whatever its address (R182). -/
def syncSpot (s : State) (cx : Ctx) (k : Kind) (va : Word) : Res Spot :=
  if va.toNat % 16 ≠ 0 then .trap 0x04 va s
  else (resolve s cx k va).bind fun p s =>
    match spaceOf p.loc with
    | .core | .chip =>
      (match s.check p 16 (k ≠ .read) with
      | some c => .trap c va s
      | none => .ok { p with win := max 1 p.win } s)
    | _ => .trap 0x06 va s

/-- The scope of a sync word's releases and acquires (R182). -/
def syncScope (p : Spot) : Nat := if spaceOf p.loc = .chip then 4 else 3

/-- One arrival of `n` bytes (R181): COUNT and GEN after it. -/
def arriveAt (target count gen n : Nat) : Nat × Nat :=
  let c := (count + n) % 2 ^ 32
  if target = 0 then (c, gen) else (c % target, (gen + c / target) % 2 ^ 32)

/-- `n` bytes arrive at the sync word at `va` (R181, R182), once its line is not locked (R361). -/
def syncArrive (s : State) (cx : Ctx) (va : Word) (n : Nat) : Res Unit :=
  (syncSpot s cx .readWrite va).bind fun p s =>
    if s.writeLocked cx va p then .stall .lock s
    else
      let at_ (o : Nat) : Spot := { p with loc := p.loc + o }
      let gen := s.peek (at_ 8) 4
      let (c, g) := arriveAt (s.peek (at_ 0) 4) (s.peek (at_ 4) 4) gen n
      .ok () ((s.setAD cx.root va p true).performHere cx (at_ 4) 8 (c + g * 2 ^ 32) ⟨false, g ≠ gen, syncScope p, false⟩)

/-- SWARM (R399). -/
def execSwarm (d a b : Gpr) (s : State) : Out :=
  scalar (.swarm d a b) s fun s =>
    let target := (s.g b).toNat % 2 ^ 32
    (syncSpot s s.cur.cx .readWrite (s.g a)).bind fun p s =>
      let at_ (o : Nat) : Spot := { p with loc := p.loc + o }
      let gen := s.peek (at_ 8) 4
      if s.writeLocked s.cur.cx (s.g a) p then .stall .lock s
      else
        let s := s.setAD s.cur.base.ptroot (s.g a) p true
        let s := (s.performHere s.cur.cx (at_ 0) 8 target .plain).performHere s.cur.cx (at_ 12) 4 0 .plain
        .ok () (s.put d (BitVec.ofNat 64 gen))

/-- SWWAIT (R182, R399): it sleeps while GEN has not reached the generation asked for. -/
def execSwwait (d a b : Gpr) (s : State) : Out :=
  scalar (.swwait d a b) s fun s =>
    let want := (s.g b).toNat % 2 ^ 32
    (syncSpot s s.cur.cx .read (s.g a)).bind fun p s =>
      let g : Spot := { p with loc := p.loc + 8 }
      let gen := s.peek g 4
      if s.adLocked s.cur.cx (s.g a) p false then .stall .loadData s
      else if (gen + 2 ^ 32 - want) % 2 ^ 32 < 2 ^ 31 then
        let (_, s) := (s.setAD s.cur.base.ptroot (s.g a) p false).performRead s.cur.cx g 4 ⟨true, false, syncScope p, false⟩
        .ok () (s.put d (BitVec.ofNat 64 gen))
      else .stall .asleep s

/-! ### QCOPY, QPUT (R396) -/

/-- Put a copy entry at the end of CQ0 or CQ1, with its number and what it must wait for. -/
def Hart.pushCopy (x : Hart) (k : BitVec 1) (e : CopyEntry) : Hart :=
  let q := x.qs
  if k = 0 then { x with qs := { q with cq0 := q.cq0 ++ [{ e with seq := q.issued, after := q.fence0 }], issued := q.issued + 1 } }
  else { x with qs := { q with cq1 := q.cq1 ++ [{ e with seq := q.issued, after := q.fence1 }], issued := q.issued + 1 } }

/-- A stream advances by `n` at the issue of a copy (R396). -/
def Hart.bumpStream (x : Hart) (q n : Nat) : Hart :=
  let v := x.stream q
  x.setStream q { v with idx := v.idx + BitVec.ofNat 64 n }

/-- The issue of a copy entry (R396): streams `t` and perhaps `src`, the value of a QPUT. -/
def issueCopy (i : Instr) (d a : Gpr) (t : Nat) (k : BitVec 1) (src : Option Nat) (value : Word) (s : State) : Res Unit :=
  let qt := s.cur.stream t
  let good (v : Stream) : Bool := v.active && v.space = 0
  let srcOk := match src with | some n => good (s.cur.stream n) && (s.cur.stream n).esz = qt.esz | none => true
  let n := (s.g a).toNat % 2 ^ 32
  let sync := s.g d
  if !good qt || !srcOk then illegal i s
  else
    let checked : Res Unit := if sync = 0 then .ok () s
      else (syncSpot s { s.cur.cx with wide := true, cls := 1 } .readWrite sync).bind fun _ s => .ok () s
    checked.bind fun _ s =>
      if n = 0 then .ok () s.advance
      else if (if k = 0 then s.cur.qs.cq0 else s.cur.qs.cq1).length ≥ Config.queueDepth then .stall .queueFull s
      else
        let e : CopyEntry := ⟨src.map s.cur.stream, value, qt, n, sync, s.cur.base.level, 0, 0, .zero⟩
        .ok () (s.onCur fun x =>
          let x := (x.pushCopy k e).bumpStream t n
          match src with
          | some q => if q = t then x else x.bumpStream q n
          | none => x).advance

/-- QCOPY (R396). -/
def execQcopy (d a : Gpr) (t : BitVec 4) (k : BitVec 1) (q : BitVec 4) (s : State) : Out :=
  let i := Instr.qcopy d a t k q
  commitPoint i s (issueCopy i d a t.toNat k (some q.toNat) 0)

/-- QPUT (R396). -/
def execQput (d a b : Gpr) (k : BitVec 1) (t : BitVec 4) (s : State) : Out :=
  let i := Instr.qput d a b k t
  commitPoint i s fun s => issueCopy i d a t.toNat k none (s.g b) s

/-! ### QFENCE (R210, R398) -/

/-- The later of two demands. -/
def After.max (a b : After) : After := ⟨Nat.max a.c0 b.c0, Nat.max a.c1 b.c1, Nat.max a.x b.x⟩

/-- QFENCE (R210): the later entries of the named queues wait for their earlier ones. F[6] names XQ, F[5] CQ1, F[4] CQ0 (R389). -/
def execQfence (c : BitVec 3) (xq cq1 cq0 : BitVec 1) (s : State) : Out :=
  scalar (.qfence c xq cq1 cq0) s fun s =>
    .ok () (s.onCur fun h =>
      let q := h.qs
      let n := q.issued
      let w : After := ⟨if cq0 = 1 then n else 0, if cq1 = 1 then n else 0, if xq = 1 then n else 0⟩
      { h with qs := { q with fence0 := if cq0 = 1 then q.fence0.max w else q.fence0
                              fence1 := if cq1 = 1 then q.fence1.max w else q.fence1
                              fenceX := if xq = 1 then q.fenceX.max w else q.fenceX } }).advance

/-- Are the entries that an entry must wait for done (R210)? -/
def Queues.ready (q : Queues) (a : After) : Bool :=
  (q.cq0.all fun e => a.c0 ≤ e.seq) && (q.cq1.all fun e => a.c1 ≤ e.seq) && q.xq.all fun e => a.x ≤ e.seq

/-! ### XPUT, XGET, XSIG (R400) -/

/-- Put a fabric entry at the end of XQ; it waits while the queue is full. -/
def pushFabric (s : State) (kind : FabricKind) (remote here : Word) (n : Nat) : Res Unit :=
  if s.cur.qs.xq.length ≥ Config.queueDepth then .stall .queueFull s
  else .ok () (s.onCur fun x =>
    let q := x.qs
    let e : FabricEntry := ⟨kind, BitVec.ofNat 56 remote.toNat, here, n, x.base.level, 0, q.issued, q.fenceX, none, none⟩
    { x with qs := { q with xq := q.xq ++ [e], issued := q.issued + 1 } }).advance

/-- XPUT (R400). -/
def execXput (d a b : Gpr) (s : State) : Out :=
  commitPoint (.xput d a b) s fun s =>
    let n := (s.g b).toNat % 2 ^ 32
    if (s.g d).toNat ≥ 2 ^ 56 then illegal (.xput d a b) s
    else if n = 0 then .ok () s.advance
    else pushFabric s .put (s.g d) (s.g a) n

/-- XGET (R400). -/
def execXget (d a b : Gpr) (s : State) : Out :=
  commitPoint (.xget d a b) s fun s =>
    let n := (s.g b).toNat % 2 ^ 32
    if (s.g d).toNat ≥ 2 ^ 56 then illegal (.xget d a b) s
    else if n = 0 then .ok () s.advance
    else pushFabric s .get (s.g d) (s.g a) n

/-- XSIG (R400). -/
def execXsig (a b : Gpr) (s : State) : Out :=
  commitPoint (.xsig a b) s fun s =>
    if (s.g a).toNat ≥ 2 ^ 56 ∨ s.g b = 0 ∨ (s.g b).toNat ≥ 2 ^ 16 then illegal (.xsig a b) s
    else pushFabric s .signal (s.g a) 0 (s.g b).toNat

/-! ### The work of a copy entry (R396, R397) -/

/-- Read the source of element `j` (R396). -/
def CopyEntry.fetch (e : CopyEntry) (s : State) (cx : Ctx) (j : Nat) : Res Nat :=
  match e.source with
  | none => .ok (e.value.toNat % 2 ^ eszWidth e.dest.esz.toNat) s
  | some q =>
    let p := q.idx.toNat + j
    let va := q.virt p
    if q.beyond p then .ok 0 s
    else if va.toNat % q.bytes ≠ 0 then .trap 0x04 va s
    else (readMem s cx va q.bytes .plain).bind fun v s =>
      .ok (if q.esz = 0 then v / 16 ^ (p % 2) % 16 else v) s

/-- Write one nibble of a byte (R192). -/
def writeNibble (s : State) (cx : Ctx) (va : Word) (v : Nat) (high : Bool) : Res Unit :=
  (resolve s cx .write va).bind fun p s => writeSpotBy s cx va p 1 fun s => s.performNibble cx p v high .plain

/-- Write a value of the destination at position `p`: an element, a byte of two nibbles, or one nibble (R181, R192);
then the sync word counts the bytes. -/
def CopyEntry.store (e : CopyEntry) (s : State) (cx : Ctx) (p v : Nat) (nib : Option Bool) : Res Unit :=
  let q := e.dest
  let va := q.virt p
  if va.toNat % q.bytes ≠ 0 then .trap 0x04 va s
  else
    let wrote : Res Unit := match nib with
      | none => writeMem s cx va q.bytes v .plain
      | some high => writeNibble s cx va v high
    wrote.bind fun _ s => if e.sync = 0 then .ok () s else syncArrive s cx e.sync q.bytes

/-- Does the read of element `j + 1` fault, that of element `j` not? -/
def CopyEntry.secondFaults (e : CopyEntry) (s : State) (cx : Ctx) (j : Nat) : Bool :=
  match e.fetch s cx j with
  | .ok _ s => (match e.fetch s cx (j + 1) with | .trap _ _ _ => true | _ => false)
  | _ => false

/-- How many elements the next write takes: both nibbles of a byte when the entry writes both (R181), unless the second of them cannot be
read (R397). -/
def CopyEntry.chunk (e : CopyEntry) (s : State) (cx : Ctx) (j : Nat) : Nat :=
  if e.dest.esz = 0 ∧ (e.dest.idx.toNat + j) % 2 = 0 ∧ j + 1 < e.n ∧ !e.secondFaults s cx j then 2 else 1

/-- Perform the `k` elements of one write, from element `j` on (R396). -/
def CopyEntry.step (e : CopyEntry) (s : State) (cx : Ctx) (j k : Nat) : Res Unit :=
  let p := e.dest.idx.toNat + j
  (e.fetch s cx j).bind fun x s =>
    if k = 2 then
      (e.fetch s cx (j + 1)).bind fun y s =>
        if e.dest.beyond p then .ok () s else e.store s cx p (x % 16 + y % 16 * 16) none
    else if e.dest.beyond p then .ok () s
    else e.store s cx p x (if e.dest.esz = 0 then some (p % 2 = 1) else none)

/-- Do the elements before `done` and those from there on share no aligned word of the destination, nor of the source (R192; log 32)? -/
def CopyEntry.whole (e : CopyEntry) : Bool :=
  let d := e.dest.idx.toNat + e.done
  let split (q : Stream) (p : Nat) : Bool := p ≠ 0 && (q.virt p).toNat / 8 = (q.virt (p - 1)).toNat / 8
  e.done = 0 || (!split e.dest d && match e.source with
    | none => true
    | some q => !split q (q.idx.toNat + e.done))

/-- Put a post behind the last one: the two are one where they lie side by side in an aligned word of host memory. -/
def joinPost (out : List Sent) (x : Sent) : List Sent :=
  match out.getLast?, x with
  | some (.write b n v), .write b' n' v' =>
    if b' = b + n ∧ b / 8 = (b' + n' - 1) / 8 then out.dropLast ++ [.write b (n + n') (v + v' * 2 ^ (8 * n))] else out ++ [x]
  | _, _ => out ++ [x]

/-- The posts of a transfer after the first `from_` go out word by word: each aligned word that lies within it is one write (R192). -/
def State.joinPosts (s : State) (from_ : Nat) : State :=
  s.onPort fun q => { q with sent := q.sent.take from_ ++ (q.sent.drop from_).foldl joinPost [] }

/-- Perform an entry from its element `done` on: how far it has come, and whether it waits or has stopped (R397). One that waits goes back to
where no word is half done, `mark` (R192). -/
def CopyEntry.runFrom (e : CopyEntry) (cx : Ctx) (mark : CopyEntry × State) : Nat → State → CopyEntry × Res Unit
  | 0, s => (e, .ok () ((s.clearAnswers cx.who).joinPosts mark.2.port.sent.length))
  | fuel + 1, s =>
    if e.done ≥ e.n then (e, .ok () ((s.clearAnswers cx.who).joinPosts mark.2.port.sent.length))
    else
      let k := e.chunk s cx e.done
      match e.step s cx e.done k with
      | .ok _ s' =>
        let e' := { e with done := e.done + k }
        let s1 := (s'.clearAnswers cx.who).joinPosts mark.2.port.sent.length
        if e'.whole then e'.runFrom cx (e', s1) fuel s1 else e'.runFrom cx mark fuel s'
      | .stall w s' => (mark.1, .stall w (mark.2.keepRequests s'))
      | .trap c t s' => (e, .trap c t ((s'.clearAnswers cx.who).joinPosts mark.2.port.sent.length))

/-- Perform an entry from its element `done` on (R397). -/
def CopyEntry.run (e : CopyEntry) (cx : Ctx) (n : Nat) (s : State) : CopyEntry × Res Unit := e.runFrom cx (e, s) n s

/-- The failure word of an entry (R397). -/
def queueFailure (cause queue at_ : Nat) : Word := BitVec.ofNat 64 (cause % 256 + queue * 2 ^ 16 + at_ % 2 ^ 32 * 2 ^ 32)

/-- The EVL bit of a queue: 1 for CQ0, 2 for CQ1, 3 for XQ (R149). -/
def queueBit (queue : Nat) : BitVec 6 := BitVec.ofNat 6 (2 ^ (queue + 1))

/-- Set bits of EVL (R156). -/
def Hart.latch (x : Hart) (bits : BitVec 6) : Hart :=
  { x with ev := { x.ev with evl := x.ev.evl ||| bits, recent := x.ev.recent ||| bits } }

/-- An entry of a queue fails (R397): the queue is discarded, EVR and EVL tell. -/
def Hart.queueFails (x : Hart) (queue cause at_ : Nat) : Hart :=
  let q := x.qs
  let qs : Queues := match queue with
    | 1 => { q with cq0 := [] } | 2 => { q with cq1 := [] } | _ => { q with xq := [] }
  { x with qs := qs, ev := { x.ev with evr := queueFailure cause queue at_ } }.latch (2 ||| queueBit queue)

end Sys2Proof.Machine
end

