-- ==== Sys2Proof/Machine/Gang.lean ====
section
/-! DEFINITION. Waiting, barriers, messages, tokens and the end of a hart: WAIT, BARJ, BARA, BARW, BARL, MSG, MRET, TOKEN,
TEXIT, TFAIL (R150-R157, R401-R405). -/

namespace Sys2Proof.Machine

/-! ### WAIT (R157, R401) -/

/-- WAIT (R157). A failure that comes while it sleeps raises Remote Fault too: the last case of R157 requires the trap whenever the handler
fails, though its pseudocode tests MFAULT before the wait (DEDUCED, log 32). -/
def execWait (d : Gpr) (m : BitVec 6) (s : State) : Out :=
  scalar (.wait d m) s fun s =>
    let evl := s.cur.ev.evl
    if evl.getLsbD 1 && !m.getLsbD 1 then .trap 0x0C s.cur.ev.evr s
    else if evl &&& m = 0 then .stall .asleep s
    else
      let hit := evl &&& m
      .ok () ((s.onCur fun x => { x with ev := { x.ev with evl := evl &&& ~~~hit } }).put d (BitVec.ofNat 64 hit.toNat))

/-! ### Barriers (R402) -/

/-- The barriers a hart may use: those of a gang with CORES that it has not left (R98, R402). -/
def State.gangOf (s : State) (i : BitVec 3) : Option Run :=
  match s.runOf s.cur with
  | none => none
  | some r => if r.cores && !(r.bar i).left.contains s.cur.place.hix.toNat then some r else none

/-- Do arrivals of the hart in focus reach the home engine of its run: is the sideband between their dies up (R31)? -/
def State.sideband (s : State) (r : Run) : Bool := s.joined r.home s.cur.id.die

/-- A barrier instruction: Illegal without a gang (R402); it waits before the commit of a cross-die launch (R41), and while the sideband to
the home engine is down (R31). -/
def barrier (ins : Instr) (i : BitVec 3) (s : State) (body : Run → Barrier → State → Res Unit) : Out :=
  scalar ins s fun s =>
    match s.gangOf i with
    | none => illegal ins s
    | some r => if r.waitsCommit s.cur then .stall .commit s else if !s.sideband r then .stall .asleep s else body r (r.bar i) s

/-- The arrivals of a member (R402). -/
def Barrier.count (b : Barrier) (h : Nat) : BitVec 32 := Table.get 0 b.arrived h

/-- An arrival of a member is noted. -/
def Barrier.note (b : Barrier) (h : Nat) : Barrier := { b with arrived := Table.set 0 b.arrived h (b.count h + 1) }

/-- A member arrives (R402). -/
def Barrier.arrive (b : Barrier) (h gsize : Nat) : Barrier := (b.note h).settle gsize

/-- The barrier after an arrival of hart `h`: only the home engine settles it. -/
def Run.afterArrival (r : Run) (i : BitVec 3) (h : Nat) : Barrier :=
  if r.origin.isSome then (r.bar i).note h else (r.bar i).arrive h r.gsize

/-- Hart `h` of a run arrives at a barrier (R402); that of another package's gang tells the home engine. -/
def State.arriveAt (s : State) (r : Run) (i : BitVec 3) (h : Nat) : State :=
  (s.atBar r i (r.afterArrival i h)).tellHome r fun n => .arrive n h i

/-- Is an episode released: (r - e) mod 2^32 in [1, 2^31] (R402)? -/
def Barrier.released (b : Barrier) (e : Nat) : Bool :=
  let k := (b.r.toNat + 2 ^ 32 - e % 2 ^ 32) % 2 ^ 32
  1 ≤ k && k ≤ 2 ^ 31

/-- BARA (R402). -/
def execBara (d : Gpr) (i : BitVec 3) (s : State) : Out :=
  barrier (.bara d i) i s fun r b s =>
    let h := s.cur.place.hix.toNat
    if b.count h = b.r + 1 then .stall .asleep s
    else .ok () ((s.arriveAt r i h).put d (BitVec.ofNat 64 (b.count h).toNat))

/-- BARW (R402). -/
def execBarw (a : Gpr) (i : BitVec 3) (s : State) : Out :=
  barrier (.barw a i) i s fun _ b s =>
    if b.released (s.g a).toNat then .ok () s.advance else .stall .asleep s

/-- BARJ (R402): its arrival stands while it sleeps, and an abandoned one goes on as its BARW. -/
def execBarj (d : Gpr) (i : BitVec 3) (s : State) : Out :=
  let ins := Instr.barj d i
  match s.cur.refuses ins with
  | some c => .next (s.scalarTrap c ins.word)
  | none => match s.gangOf i with
    | none => .next (s.scalarTrap 0x01 ins.word)
    | some r =>
      let b := r.bar i
      let h := s.cur.place.hix.toNat
      let done (e : Nat) (s : State) : Out :=
        .next ((s.onCur fun x => { x with wait := { x.wait with barj := none } }).put d (BitVec.ofNat 64 e))
      if r.waitsCommit s.cur then .next (s.stalled .commit)
      else if !s.sideband r then .next (s.stalled .asleep)
      else
        let mine := match s.cur.wait.barj with | some (k, e) => if k = i.toNat then some e else none | none => none
        match mine with
        | some e => if b.released e then done e s else .next (s.stalled .asleep)
        | none =>
          if b.count h = b.r + 1 then .next (s.stalled .asleep)
          else
            let e := (b.count h).toNat
            let s := s.arriveAt r i h
            if (r.afterArrival i h).released e then done e s
            else .next ((s.onCur fun x => { x with wait := { x.wait with barj := some (i.toNat, e) } }).stalled .asleep)

/-- BARL (R402); before COMMIT it takes effect at once (log 33). Nobody learns of it while the sideband to the home engine is down (R31). -/
def execBarl (i : BitVec 3) (s : State) : Out :=
  scalar (.barl i) s fun s =>
    match s.gangOf i with
    | none => illegal (.barl i) s
    | some r =>
      let s := if s.sideband r then s.leaveBar r i s.cur.place.hix.toNat else s
      .ok () s.advance

/-! ### MSG, MRET (R150-R153, R403) -/

/-- The message that a hart sends (R150, R403): `w` is g(A), `p` the words of its payload. -/
def Hart.message (x : Hart) (w : Nat) (tok reply : Bool) (p : Nat → Word) : Message :=
  { hnd := BitVec.ofNat 8 (w / 65536), reply := reply, tok := tok, sender := x.id, uid := x.uid
    sup := x.base.level = .supervisor, kslot := x.base.key, tokaddr := p 0, p := Vector.ofFn fun k => p (k.val + 1)
    ptroot := x.base.ptroot, mhbase := x.ev.mhbase, feat := x.base.feat }

/-- Word 0 of a message (R150). -/
def Message.word0 (m : Message) : Word :=
  BitVec.ofNat 64 (m.hnd.toNat + (if m.reply then 2 ^ 8 else 0) + (if m.tok then 2 ^ 9 else 0) + m.sender.die % 4 * 2 ^ 16
    + m.sender.clu % 16 * 2 ^ 18 + m.sender.core % 16 * 2 ^ 22 + m.sender.slot % 8 * 2 ^ 26 + (if m.sup then 2 ^ 29 else 0)
    + m.kslot.toNat * 2 ^ 32)

/-- MSG (R151, R403). Messages on the way count for the target's queue (log 32). -/
def execMsg (a b : Gpr) (t r : BitVec 1) (s : State) : Out :=
  let i := Instr.msg a b t r
  commitPoint i s fun s =>
    let w := (s.g a).toNat
    let k : CoreId := ⟨w % 4, w / 4 % 16, w / 64 % 16⟩
    if bitsOf w 15 10 ≠ 0 ∨ w ≥ 2 ^ 24 then illegal i s
    else if r = 1 ∧ s.cur.ev.out ≥ 8 then .stall .message s
    else if (s.core k).queue.length + (s.core k).wire.length ≥ Config.queueDepth then .stall .message s
    else
      let m := s.cur.message w (t = 1) (r = 1) fun n => s.g (b + BitVec.ofNat 5 n)
      let s := (s.onCore k fun c => { c with wire := c.wire ++ [m] }).overLink s.cur.id.die k.die
      .ok () (s.onCur fun x => { x with ev := { x.ev with out := x.ev.out + r.toNat } }).advance

/-- Tokens set out for a word (R81). -/
def State.sendTokens (s : State) (die loc n : Nat) : State :=
  s.onEngines fun e => { e with tokens := e.tokens ++ [⟨die, loc, n⟩] }

/-- What an MRET does (R152): the reply, the slot cleared. -/
def State.endHandler (s : State) (h : Handler) (v : Word) : State :=
  let s := if h.msg.reply then
      { s.overLink s.cur.id.die h.msg.sender.die with replies := s.replies ++ [⟨h.msg.uid, v, false, true, s.cur.id.die⟩] }
    else s
  { s with cur := s.cur.cleared }

/-- MRET (R152, R153). A token whose address faults fails the handler before anything is sent. -/
def execMret (a : Gpr) (s : State) : Out :=
  scalar (.mret a) s fun s =>
    match s.cur.handler with
    | none => illegal (.mret a) s
    | some h =>
      let v := s.g a
      if h.msg.tok then
        (tokenSpot s s.cur.cx h.msg.tokaddr).bind fun p s =>
          .ok () ((s.sendTokens s.cur.id.die p.loc 1).endHandler h v)
      else .ok () (s.endHandler h v)

/-! ### TOKEN (R404) -/

/-- TOKEN (R80-R83, R404). -/
def execToken (a b : Gpr) (s : State) : Out :=
  scalar (.token a b) s fun s =>
    let n := (s.g b).toNat
    if n = 0 ∨ n ≥ 2 ^ 16 then illegal (.token a b) s
    else (tokenSpot s s.cur.cx (s.g a)).bind fun p s => .ok () (s.sendTokens s.cur.id.die p.loc n).advance

/-! ### TEXIT, TFAIL (R405) -/

/-- TEXIT (R99, R405): the strip commits, the lease goes, the hart waits for its queues (HART_RETIRE). -/
def execTexit (s : State) : Out :=
  match s.cur.refuses .texit with
  | some c => .next (s.scalarTrap c (Instr.texit).word)
  | none => endStrip s .exit fun s => .next (s.endHart true)

/-- The failure that a TFAIL records (R77, R102, R116): at supervisor level in a handler it is the trapped instruction's, with the TIME of
that trap (R433). -/
def State.tfailure (s : State) (code : Nat) : Failure :=
  let f := s.shownFrame
  let x := s.cur
  let sup : Bool := x.base.level ≠ .user
  let inTrap : Bool := sup && x.trap.depth ≠ 0
  { time := if inTrap then some (x.trap.times[(x.trap.depth - 1) % 2]'(Nat.mod_lt _ (by decide))) else none
    reason := if sup then 2 else 1, code := code % 65536, fhix := x.place.hix.toNat
    epc := if inTrap then f.epc else x.base.pc, tval := if inTrap then f.tval else 0, loc := some x.id, lost := 0 }

/-- TFAIL (R102, R405). -/
def execTfail (a : Gpr) (s : State) : Out :=
  match s.cur.refuses (.tfail a) with
  | some c => .next (s.scalarTrap c (Instr.tfail a).word)
  | none => .next (s.hartFails (s.tfailure (s.g a).toNat))

end Sys2Proof.Machine
end

