-- ==== Sys2Proof/Machine/TraceEvents.lean ====
section
/-! DEFINITION. The start of a trace session (R269) and the events of sessions. -/

namespace Sys2Proof.Machine

/-- Does every page of the buffer translate for writing (R269)? -/
def State.bufferMapped (s : State) (t : Trace) : Bool :=
  (List.range (2 ^ t.log2.toNat)).all fun i =>
    let va := t.at_ (i * 65536)
    canonical va && !inWindow va && match walk s t.ptroot va.toNat with
    | .leaf _ e l => leafAllows s.pkgid.toNat (t.key ≠ 0) t.key.toNat .write e l va.toNat
    | _ => false

/-- Start a session (R269): refused with STOP 5, or the header and the KIND 8 record. A header write that is refused stops it (R273). -/
def State.startTrace (s : State) (d n : Nat) : State :=
  let t := s.trace d n
  if t.en then s
  else
    let refuse : State := s.onTrace d n fun t => { t with stop := 5 }
    match s.attachedAt t.graph with
    | none => refuse
    | some a =>
      let t := { t with ptroot := a.ptroot, key := a.slot, en := true, stop := 0, loss := 0, wpos := 0, staged := [],
                        gen := BitVec.ofNat 16 (s.gen a), opening := some s.port.time, closing := false }
      if !((Config.devFeat &&& ~~~s.port.featmask).getLsbD 5) || t.log2.toNat > 10 || !s.bufferMapped t then refuse
      else
        let s := s.onTrace d n fun _ => t.emit t.graph ⟨8, 0, 0, t.gen, 0, s.port.time, 0, 0, false⟩
        match s.writeHeader d n with
        | .ok _ s | .stall _ s => s
        | .trap _ _ s => s.stopTrace d n 3

/-- TRACE_START (R269). -/
def execTraceStart (die session : Nat) (s : State) : Out := .next (s.startTrace die session)

/-- TRACE_BATCH_WRITE (R271); a stop that waits to tell the header does so (R273). -/
def execTraceBatchWrite (die session : Nat) (s : State) : Out :=
  if (s.trace die session).closing then .next (s.closeTrace die session) else engineEvent s (die % 4) (s.writeBatch die session)

end Sys2Proof.Machine
end

