-- ==== Sys2Proof/Machine/Attach.lean ====
section
/-! DEFINITION. Attaching and detaching graphs (R73-R76, R84-R86). -/

namespace Sys2Proof.Machine

/-- A node record's fields read under a given graph (R75). -/
def State.nfield (s : State) (a : Attached) (i off n : Nat) : Nat := s.gread a (nodeOff i off) n

/-- Is a node record well formed (R76)? Every reserved bit of R75 is zero, those of EFLAGS among them: at the attach as they stand in memory,
later in the engine's own copy (R74). -/
def State.nodeOk (s : State) (a : Attached) (i eflags : Nat) : Bool :=
  let f := s.nfield a i
  let lmin := f 38 1
  let lpref := f 39 1
  let lsq := f 40 1
  let quota := f 41 1
  f 0 2 = i && f 3 1 < 8 && f 6 1 < 64 && f 7 1 < 4 && 1 ≤ f 32 4 && f 32 4 ≤ 7168
    && lmin ≤ 16 && lmin ≤ lpref && lpref ≤ 16 && eflags < 2 && quota ≤ 16 && f 42 1 ≤ 1
    && (if lsq = 0 then quota = 0 else lmin = lsq && lpref = lsq)
    && f 8 8 % 8 = 0 && f 16 8 % 4 = 0 && f 48 8 % 4 = 0 && f 56 8 % 8 = 0 && f 64 8 % 8 = 0 && f 80 8 % 8 = 0

/-- The header of a graph that is not attached, read for the attach (R74, R85). -/
def State.readHeader (s : State) (addr : BitVec 56) (home : Nat) : Attached :=
  let loc := addr.toNat % 2 ^ 44
  let b := s.store.bytes
  { header := addr, home := home, slot := BitVec.ofNat 8 (b.readN (loc + 6) 1), ptroot := BitVec.ofNat 56 (b.readN (loc + 56) 8),
    ncount := b.readN (loc + 12) 4, vector := b.readN (loc + 18) 2 % 2048, walks := [] }

/-- The first failure of the header's checks (R85): 0 for none. The order of the checks within the header is the model's (log 41). -/
def State.headerResult (s : State) (a : Attached) : Nat :=
  if a.header.toNat % 256 ≠ 0 ∨ a.header.toNat / 2 ^ 44 ≠ s.pkgid.toNat then 1
  else if !s.store.keyLoaded a.slot.toNat then 2
  else if (s.check (a.spot 0) 8 true).isSome then 6
  else if s.gread a 0 4 ≠ 0x4852475A ∨ s.gread a 4 2 ≠ 1 ∨ s.gread a 7 1 ≥ 8 ∨ s.gread a 17 1 ≠ 0 ∨ s.gread a 18 2 ≥ 2048
      ∨ s.gread a 48 8 % 8 ≠ 0 ∨ s.gread a 68 60 ≠ 0 then 1
  else if a.ncount = 0 ∨ a.ncount > 65536 then 3
  else if s.gread a 56 8 % 0x20000 ≠ 0 ∨ s.gread a 56 8 ≥ 2 ^ 56 then 6
  else 0

/-- The checks of node `i`: RESULT, or the location of its token word (R85). TOKADDR is translated for a read and a write (log 41). -/
def State.nodeResult (s : State) (a : Attached) (i : Nat) (bound : List Nat) : Res (Nat ⊕ Nat) :=
  let s := s.gaudit a (nodeOff i 0) 96
  if (s.check (a.spot (nodeOff i 0)) 128 true).isSome then .ok (.inl 6) s
  else if !s.nodeOk a i (s.gmem a (nodeOff i 43) 1) then .ok (.inl 7) s
  else match resolve s a.cx .readWrite (BitVec.ofNat 64 (s.nfield a i 8 8)) with
    | .stall w s => .stall w s
    | .trap _ _ s => .ok (.inl 6) s
    | .ok p s =>
      if (s.check p 8 true).isSome then .ok (.inl 6) s
      else if bound.contains p.loc ∨ Table.get noBinding s.engines.directory p.loc ≠ noBinding then .ok (.inl 4) s
      else
        let init := bitsOf (s.peek p 8) 47 32
        let s := s.audit 4 false p.loc 8
        .ok (if init = 0 then .inl 7 else .inr p.loc) s

/-- The checks of nodes `i` to `i + k - 1`: the first failure with its node, or every token word. -/
def attachNodes (s : State) (a : Attached) : Nat → Nat → List Nat → Res ((Nat × Nat) ⊕ List Nat)
  | 0, _, acc => .ok (.inr acc) s
  | k + 1, i, acc => (s.nodeResult a i acc).bind fun r s =>
    match r with
    | .inl c => .ok (.inl (c, i)) s
    | .inr loc => attachNodes s a k (i + 1) (acc ++ [loc])

/-- GSTAT of the hart in focus (R84). -/
def State.setGstat (s : State) (result nidx : Nat) : State :=
  s.onCur fun x => { x with sel := { x.sel with gstat := BitVec.ofNat 32 (result + nidx * 65536) } }

/-- What a successful attach writes, and the bindings (R85). -/
def State.attachWrites (s : State) (a : Attached) (words : List Nat) : State :=
  let g := s.gen a
  let old := (g + 65535) % 65536
  let s := ((((s.gwrite a 10 2 g).gwrite a 16 1 0).gwrite a 20 20 0).gwrite a 40 8 0).gwrite a 64 4 0
  let s := (List.range a.ncount).foldl (init := s) fun s i =>
    (((s.gwrite a (nodeOff i 2) 1 0).gwrite a (nodeOff i 4) 2 old).gwrite a (nodeOff i 37) 1 0).gwrite a (nodeOff i 43) 1 0
  let s := words.foldl (init := s) fun s w => s.performWrite a.cx ⟨w + 6, a.slot.toNat, 2⟩ 2 old .plain
  s.onEngines fun e => { e with
    attached := e.attached ++ [a]
    directory := (words.zipIdx).foldl (init := e.directory) fun t w => Table.set noBinding t w.1 (a.header, w.2) }

/-- GATTACH by the hart in focus (R85). -/
def State.attach (s : State) (addr : BitVec 56) : Res Unit :=
  let a := s.readHeader addr s.cur.id.die
  let s := s.gaudit a 0 128
  match s.headerResult a with
  | 0 => (attachNodes s a a.ncount 0 []).bind fun r s =>
    match r with
    | .inl (c, i) => .ok () (s.setGstat c i)
    | .inr words =>
      if s.engines.directory.length + a.ncount > 262144 then .ok () (s.setGstat 5 0)
      else if s.graphLocked a ∨ words.any (s.lockedFor a.home · 8) then .stall .home s
      else .ok () ((s.attachWrites a words).setGstat 0 0)
  | c => .ok () (s.setGstat c 0)

/-- The bindings and the engine's records of a graph go (R86), its places in the ready queues, its reservations and its own copies;
what still runs of it ends without effect on a graph. Its trace sessions end first (R272). -/
def State.unbind (s : State) (g : BitVec 56) : Res Unit :=
  (endTraces s g (List.range 16)).bind fun _ s => .ok () <| (s.dropReady fun r => r.graph = g).onEngines fun e => { e with
    attached := e.attached.filter fun a => a.header ≠ g
    directory := e.directory.filter fun b => b.2.1 ≠ g
    runs := e.runs.map fun r => if r.graph = g then { r with state := .aborted, toStart := [] } else r
    own := (e.attached.filter fun a => a.header = g).foldl (init := e.own) fun o a => o.zero a.base (a.base + 256 + 128 * a.ncount) }

/-- Is a node of the graph PLACING, RUNNING, RETRYING or CANCELLING (R86)? -/
def State.busyNodes (s : State) (a : Attached) : Bool := (List.range a.ncount).any fun i => [3, 4, 7, 8].contains (s.nodeState a i)

/-- GDETACH by the hart in focus (R86). -/
def State.detach (s : State) (addr : BitVec 56) : Res Unit :=
  match s.attachedAt addr with
  | none => .ok () (s.setGstat 9 0)
  | some a =>
    if s.busyNodes a then .ok () (s.setGstat 8 0)
    else (s.unbind addr).bind fun _ s => .ok () (s.setGstat 0 0)

end Sys2Proof.Machine
end

