-- ==== Sys2Proof/Machine/Lease.lean ====
section
/-! DEFINITION. Leases (R117-R143): the pool, requests, grants and migration, shrinks and growth, suspension and
resumption, the spill area (R233). -/

namespace Sys2Proof.Machine

/-! ### The pool (R117, R119, R142) -/

/-- A Pod of a die (R9). -/
def State.pod (s : State) (d p : Nat) : Pod := Table.get Pod.fresh (s.die d).pods p

/-- Change a Pod. -/
def State.onPod (s : State) (d p : Nat) (f : Pod → Pod) : State :=
  s.onDie d fun x => { x with pods := Table.set Pod.fresh x.pods p (f (Table.get Pod.fresh x.pods p)) }

/-- May the Pod be granted (R25, R26)? -/
def Pod.live (p : Pod) : Bool := !p.retired && p.doomed = 0

/-- The live Pods of a cluster, by number (R142); a management core belongs to none (R168). -/
def State.livePods (s : State) (d c : Nat) : List Nat := (List.range (if c < 16 then 16 else 0)).filter fun p => (s.pod d (16 * c + p)).live

/-- The harts whose lease stands at a cluster; a pre-emption withdraws a WAIT request (R238). -/
def State.leasesAt (s : State) (d c : Nat) : List Hart :=
  s.harts.filter fun x =>
    x.lease.state ≠ .none && x.lease.die = d && x.lease.clu = c && !(x.wait.preempt && x.lease.state = .wait)

/-- Pods held or promised in a cluster. -/
def State.takenPods (s : State) (d c : Nat) : List Nat := (s.leasesAt d c).flatMap fun x => x.lease.pods ++ x.lease.promised

/-- Pods neither held nor promised (R130, R142). -/
def State.freePods (s : State) (d c : Nat) : List Nat := (s.livePods d c).filter fun p => !(s.takenPods d c).contains p

/-- The free Pods of a die, by their number in the die. -/
def State.dieFreePods (s : State) (d : Nat) : List Nat := (List.range 16).flatMap fun c => (s.freePods d c).map (16 * c + ·)

/-- QSUM (R129, R134): the quota of HELD leases, in entries. -/
def State.qsum (s : State) (d c : Nat) : Nat :=
  ((s.leasesAt d c).map fun x => if x.lease.state = .held then 256 * x.lease.force.quota else 0).foldl (· + ·) 0

/-- The greatest number of live Pods in any cluster of the die (R140). -/
def State.mostLive (s : State) (d : Nat) : Nat := (List.range 16).foldl (fun a c => max a (s.livePods d c).length) 0

/-- The lowest-numbered cluster of a die whose live Pods meet a need (R138). -/
def State.roomFor (s : State) (d need : Nat) : Option Nat :=
  (List.range 16).find? fun c => need ≤ (s.livePods d c).length

/-- Is d2d available (R71)? -/
def State.d2d (s : State) : Bool := (Config.devFeat &&& ~~~s.port.featmask).getLsbD 4

/-- The program slots of a cluster that hold no hart. -/
def State.freeSlots (s : State) (d c : Nat) : List HartId :=
  ((List.range 112).map fun k => (⟨d, c, k / 7, k % 7⟩ : HartId)).filter fun h => (s.hart h).occ = .empty

/-- The effective priority of a node entry (R93). -/
def Ready.effPri (r : Ready) (now : Nat) : Nat := min 7 (r.prio + (now - r.entered) / Config.agePeriod)

/-- The effective priority of the node of a hart (R93). -/
def State.nodePri (s : State) (x : Hart) : Nat :=
  match s.runOf x with | some r => min 7 (r.prio + (s.cycle - r.entered) / Config.agePeriod) | none => 7

/-- The free program slots of a cluster that a node of an effective priority may have: those that have become free since a node of at least
that priority reserved the die go to that node first (R94). -/
def State.openSlots (s : State) (d c pri : Nat) (own : Reserve → Bool) : List HartId :=
  (s.freeSlots d c).filter fun h => s.engines.reserved.all fun v => v.die ≠ d || own v || v.slots.contains h
    || (match s.engines.ready.find? v.is with | some r => r.effPri s.cycle < pri | none => true)

/-- Those of the first cluster of a die that has one. -/
def State.openDieSlots (s : State) (d pri : Nat) (own : Reserve → Bool) : List HartId :=
  ((List.range 16).map fun c => s.openSlots d c pri own).find? (· ≠ []) |>.getD []

/-- The dies where harts of a run stand, the pre-empted ones among them, but for one hart (R31). -/
def State.runDies (s : State) (run but : Nat) : List Nat :=
  (((s.harts ++ s.engines.parked).filter fun x => x.place.run = some run && x.occ ≠ .empty && x.uid ≠ but).map fun x => x.id.die).eraseDups

/-- The other die to which R138 moves the hart of a request: lowest-numbered, with a cluster for it and a free program
slot, for a node placed ANY without CORES. A hart with an open session is never moved (R370). -/
def State.otherDie (s : State) (x : Hart) (need : Nat) : Option Nat :=
  match s.runOf x with
  | none => none
  | some r =>
    if r.place = 2 && !r.cores && s.d2d && x.vec.session.isNone then
      (List.range 4).find? fun d => d ≠ x.id.die && (s.roomFor d need).isSome && s.openDieSlots d (s.nodePri x) (fun _ => false) ≠ []
        && s.joined r.home d && (s.runDies r.id x.uid).all (s.joined d)
    else none

/-- TVAL of Lease Impossible (R140). -/
def State.impossible (s : State) (d need : Nat) : Word := BitVec.ofNat 64 (need % 32 + s.mostLive d * 256)

/-! ### Requests (R120, R121, R129) -/

/-- MIN, or SQ for a square (R129). -/
def Request.need (r : Request) : Nat := if r.sq ≠ 0 then r.sq else r.min

/-- The rules of R120. -/
def Request.ok (r : Request) : Bool :=
  r.min ≤ 16 && r.pref ≤ 16 && r.quota ≤ 16 && (r.sq = 0 || r.sq = 1 || r.sq = 4 || r.sq = 16)
    && (if r.min = 0 then r.pref = 0 && r.sq = 0 && r.quota = 0 else r.min ≤ r.pref)
    && (r.sq = 0 || (r.min = r.pref && r.pref = r.sq)) && (r.quota = 0 || r.sq ≠ 0)

/-- A request read from a register (R390); none where a reserved bit is 1. -/
def Request.ofWord (w : Nat) : Option Request :=
  if bitsOf w 7 5 ≠ 0 ∨ bitsOf w 15 13 ≠ 0 ∨ bitsOf w 23 21 ≠ 0 ∨ bitsOf w 30 29 ≠ 0 then none
  else some ⟨bitsOf w 4 0, bitsOf w 12 8, bitsOf w 20 16, bitsOf w 28 24, bitsOf w 31 31 = 1⟩

/-- A request as a number in the layout of R120. -/
def Request.word (r : Request) : Nat :=
  r.min + r.pref * 2 ^ 8 + r.sq * 2 ^ 16 + r.quota * 2 ^ 24 + (if r.mode then 2 ^ 31 else 0)

/-- VLREQ (R121). -/
def Lease.vlreq (l : Lease) : Word := BitVec.ofNat 64 (l.req.word + l.pri * 2 ^ 32)

/-- The code of a lease state (R141). -/
def LeaseState.code : LeaseState → Nat
  | .none => 0 | .wait => 1 | .held => 2 | .suspended => 3

/-- Does the next VSETL release a HELD lease: MIN 0, or another SQ or QUOTA (R122)? -/
def Lease.leaves (l : Lease) : Bool := l.req.min = 0 || l.req.sq ≠ l.force.sq || l.req.quota ≠ l.force.quota

/-- The Pods that the next VSETL applies to a HELD lease (R122, R141). -/
def Lease.applies (l : Lease) : Nat := if l.leaves then 0 else min l.next l.req.pref

/-- The next grant of a lease whose request still stands, else the Pods that the arbiter has set for it (R131). -/
def Lease.nextGrant (l : Lease) : Nat := if l.leaves then l.next else min l.next l.req.pref

/-- VGRANT (R141). A slot without a lease shows the reset value 0 in CLU and DIE. -/
def Lease.vgrant (l : Lease) : Word :=
  let at_ : Nat := if l.state = .none then 0 else l.clu % 16 * 2 ^ 16 + l.die % 4 * 2 ^ 20
  BitVec.ofNat 64 (l.pods.length + (if l.state = .held then l.applies else l.next) * 2 ^ 8 + at_ + l.state.code * 2 ^ 22
    + (if l.stable then 2 ^ 24 else 0) + l.revoke.toNat * 2 ^ 32 + l.shrink.toNat * 2 ^ 48)

/-- Does a HELD lease ask for more than its grant (R122, R129)? While a shrink is ordered, not before the VSETL that applies it (R131). -/
def Lease.raised (l : Lease) : Bool := l.state = .held && !l.leaves && l.pods.length ≤ l.next && l.next < l.req.min

/-- The need of a waiting, suspended or raised lease (R129, R137). -/
def Lease.need (l : Lease) : Nat :=
  match l.state with
  | .suspended => match l.susp with
    | some u => if l.force.sq ≠ 0 then l.force.sq else if u.mid then u.pods else l.force.min
    | none => l.force.need
  | .held => l.req.min - l.pods.length
  | _ => l.req.need

/-- The quota that a grant admits (R129, R134). -/
def Lease.quotaNeed (l : Lease) : Nat :=
  match l.state with | .suspended => l.force.quota | .wait => l.req.quota | _ => 0

/-- Is a lease in the arbiter's list of requests (R130)? -/
def Lease.asks (l : Lease) : Bool := l.state = .wait || l.state = .suspended || l.raised

/-- The effective priority (R128). -/
def Lease.effPri (l : Lease) (now : Nat) : Nat :=
  if l.state = .held then l.pri else min 7 (l.pri + (now - l.entered) / Config.agePeriod)

/-! ### Undefined contents (R125) -/

/-- The bits of a vector register for a number of Pods. -/
def regBits (pods : Nat) : Nat := 512 * 64 * pods

/-- A register whose first `keep` bits are kept and whose bits up to `size` are the free value `z`. -/
def refill (x keep size z : Nat) : Nat := x % 2 ^ keep + (z % 2 ^ (size - keep)) * 2 ^ keep

/-- The registers after a change from `old` to `new` Pods, mask bits taken at element width `w` (R125); what was not
there before is undefined: free values from number `n` on. -/
def VRegs.migrate (r : VRegs) (old new w n : Nat) : VRegs :=
  let kv := regBits (min old new)
  let km := 256 * min old new * perGroup w
  { v := r.v.mapFinIdx fun i x _ => refill x kv (regBits new) (if new ≤ old then 0 else Config.freeNat (n + i))
    m := r.m.mapFinIdx fun i x _ => refill x km (256 * new * perGroup w) (if new ≤ old then 0 else Config.freeNat (n + 32 + i))
    w := r.w }

/-- The lane-local stores after a change to `new` Pods (R125): those of kept lanes stay in place. -/
def Vec.migrateLanes (v : Vec) (new n : Nat) : Vec :=
  { v with lanes := v.lanes.filter fun e => e.1 < 64 * new * 8192
           laneSeeds := v.laneSeeds.take (64 * new) ++ List.replicate (64 * new - v.laneSeeds.length) n }

/-- The hart in focus goes from its grant to the Pods `pods`, at element width `w` (R125). -/
def State.regrant (s : State) (pods : List Nat) (w : Nat) : State :=
  let old := s.cur.lease.pods.length
  let n := s.free
  let s := { s with free := s.free + 41 }
  s.onCur fun x => { x with
    vec := { x.vec.migrateLanes pods.length (n + 40) with regs := x.vec.regs.migrate old pods.length w n }
    lease := { x.lease with pods := pods }
    links := if old = pods.length then x.links else [] }

/-- The mask bits from those of `old` Pods on are undefined for a VSETL at element width `w` (R125): free values from number `n` on. -/
def VRegs.undefMasks (r : VRegs) (old new w n : Nat) : VRegs :=
  { r with m := r.m.mapFinIdx fun i x _ => refill x (256 * old * perGroup w) (256 * new * perGroup w) (Config.freeNat (n + i)) }

/-- Pods given to a lease remember its key slot; the scrub of R119 leaves no data of another slot. -/
def State.scrubPods (s : State) (d c : Nat) (pods : List Nat) (key : Nat) : State :=
  s.onCluster d c fun x => { x with podKey := pods.foldl (init := x.podKey) fun t p => Table.set 256 t p key }

/-! ### Spill areas (R233) -/

/-- The lowest spill area of a die that is not assigned. -/
def Die.freeArea (x : Die) : Option Nat := (List.range x.spln.toNat).find? fun i => !x.splUsed.contains i

/-! ### Release (R122, R134) -/

/-- The lease of the hart in focus becomes NONE: Pods, quota and spill area are free (R122, R134, R233). -/
def State.releaseLease (s : State) : State :=
  (s.freeArea s.cur.id.die s.cur.lease).onCur Hart.dropVector

/-! ### Reservations (R93, R94) -/

/-- The Pods of a cluster that have become free since a node of at least a priority reserved the die: they go to that node first
(R94). -/
def State.withheld (s : State) (d c pri : Nat) : List Nat :=
  (s.freePods d c).filter fun p => s.engines.reserved.any fun v => v.die = d && !v.had.contains (16 * c + p)
    && (s.engines.ready.find? v.is).any fun r => pri ≤ r.effPri s.cycle

/-- The free Pods that a lease of a priority may have (R94, R130). -/
def State.openPods (s : State) (d c pri : Nat) : List Nat := (s.freePods d c).filter fun p => !(s.withheld d c pri).contains p

/-! ### Grants (R130, R137) -/

/-- Put Pod numbers in rising order. -/
def insertPod (p : Nat) : List Nat → List Nat
  | [] => [p]
  | q :: qs => if p ≤ q then p :: q :: qs else q :: insertPod p qs

/-- After a resumption on another count (R137): the strip that stands at a commit point, or one that is to be
replayed, has its VL limited to the new VLMAX, as a trim. -/
def Hart.relimit (x : Hart) (held now : Nat) : Hart :=
  if held = now then x
  else
    let vl := min x.vec.vl (x.vlmax x.vec.fmt.width)
    let less : Bool := vl < x.vec.vl
    match x.vec.strip with
    | some t =>
      if t.aborted then x
      else { x with vec := { x.vec with
        vl := vl, vbl := vblOf vl x.vec.blk
        strip := some { t with opening := x.vec.regs, openVl := vl, openVbl := vblOf vl x.vec.blk, trim := t.trim || less } } }
    | none => match x.vec.reopen with
      | some b => { x with vec := { x.vec with vl := vl, vbl := vblOf vl x.vec.blk, reopen := some (b || less) } }
      | none => x

/-- Grant a request its need (R130, R137): the Pods promised to it and the lowest free ones, in rising order (R117). A resumption that
changes the count where no strip is to open again leaves the mask bits to the next VSETL, at whose width they migrate (R125); so does the
first grant, at which all of them are undefined (R148). -/
def State.grant (s : State) (h : HartId) (need : Nat) : State :=
  let back := s.cur.id
  let s := s.focus h
  let l := s.cur.lease
  let d := l.die
  let c := l.clu
  let pods := (l.promised.take need ++ (s.openPods d c (l.effPri s.cycle)).take (need - l.promised.length)).foldr insertPod []
  let s := s.scrubPods d c pods s.cur.base.key.toNat
  let s := match l.state with
    | .held => s.onCur fun x => { x with lease := { x.lease with promised := pods, next := x.lease.pods.length + pods.length } }
    | .suspended =>
      let held := match l.susp with | some u => u.pods | none => 0
      let w := if s.cur.vec.reopen.isSome then s.cur.vec.fmt.width else 4
      let n := s.free
      let s := { s with free := s.free + 41 }
      let s := s.onCur fun x =>
        let masks := if x.vec.reopen.isSome then x.vec.maskPods else some (min held (x.vec.maskPods.getD held))
        let vec := if held = pods.length then x.vec
          else { x.vec.migrateLanes pods.length (n + 40) with regs := x.vec.regs.migrate held pods.length w n, maskPods := masks }
        { x with vec := vec
                 lease := { x.lease with state := .held, pods := pods, promised := [], next := pods.length, susp := none,
                                         granted := s.cycle } }
      (s.onCur fun x => x.relimit held pods.length).marrowWritten s.cur.vec.marrow.length
    | _ =>
      let s := (s.onCur fun x => { x with lease := { x.lease with pods := [] } }).regrant pods s.cur.vec.fmt.width
      s.onCur fun x => { x with
        vec := { x.vec with regs := { x.vec.regs with w := Vector.replicate 4 Tile.undef }, maskPods := some 0 }
        lease := { x.lease with state := .held, promised := [], next := pods.length, force := x.lease.req, granted := s.cycle } }
  s.focus back

/-- Give a lease an area of its die if it has none (R233); none where no area is free. -/
def State.assignArea (s : State) (h : HartId) : Option State :=
  let x := s.hart h
  if x.lease.area.isSome then some s
  else match (s.die x.id.die).freeArea with
    | some i => some ((s.onHart h fun x => { x with lease := { x.lease with area := some i } }).onDie x.id.die fun d =>
        { d with splUsed := i :: d.splUsed })
    | none => none

/-- Does `x` rank before `y` (R128)? -/
def ranksBefore (now : Nat) (x y : Hart) : Bool :=
  let a := x.lease.effPri now
  let b := y.lease.effPri now
  let pos (h : HartId) : Nat := h.clu * 128 + h.core * 8 + h.slot
  a > b || (a = b && (x.lease.entered < y.lease.entered || (x.lease.entered = y.lease.entered && pos x.id ≤ pos y.id)))

/-- Insert by an order. -/
def insertBy (before : Hart → Hart → Bool) (x : Hart) : List Hart → List Hart
  | [] => [x]
  | y :: ys => if before x y then x :: y :: ys else y :: insertBy before x ys

/-- Sort by an order. -/
def sortBy (before : Hart → Hart → Bool) (xs : List Hart) : List Hart := xs.foldr (insertBy before) []

/-- Does a request fit (R129)? Pods promised to it count for it. -/
def State.fits (s : State) (d c : Nat) (l : Lease) : Bool :=
  l.need ≤ (s.openPods d c (l.effPri s.cycle)).length + l.promised.length
    && s.qsum d c + 256 * l.quotaNeed ≤ 4096

/-- What a head lacks (R131): Pods not free, not promised to it and not already coming from shrinks or revocations. -/
def State.podShortfall (s : State) (d c : Nat) (l : Lease) : Nat :=
  let coming := ((s.leasesAt d c).map fun x =>
    if x.lease.draining.isSome ∨ (x.lease.susp.isSome ∧ x.lease.state = .held) then x.lease.pods.length
    else x.lease.pods.length - x.lease.nextGrant).foldl (· + ·) 0
  l.need - (s.openPods d c (l.effPri s.cycle)).length - l.promised.length - coming

/-- Quota that a head lacks (R131). -/
def State.quotaShortfall (s : State) (d c : Nat) (l : Lease) : Nat :=
  let coming := ((s.leasesAt d c).map fun x =>
    if x.lease.state = .held ∧ (x.lease.draining.isSome ∨ x.lease.susp.isSome) then 256 * x.lease.force.quota else 0).foldl (· + ·) 0
  s.qsum d c + 256 * l.quotaNeed - 4096 - coming

/-- The targets of shrink orders and growth: HELD, no square, no freeze (R131, R132). -/
def Lease.elastic (l : Lease) : Bool := l.state = .held && l.force.sq = 0 && !l.stable && l.draining.isNone && l.susp.isNone

/-- Send shrink orders until the lack is covered (R131, first stage). -/
def sendShrinks (s : State) (lack : Nat) : List Hart → State
  | [] => s
  | x :: xs =>
    if lack = 0 then s
    else
      let k := min lack (x.lease.nextGrant - x.lease.force.min)
      sendShrinks (s.onHart x.id fun y => { y with lease := { y.lease with
        next := y.lease.nextGrant - k, promised := y.lease.promised.take (y.lease.nextGrant - k - y.lease.pods.length) } })
        (lack - k) xs

/-- The first stage of R131 for the head `x`. -/
def State.shrinkOrders (s : State) (d c : Nat) (x : Hart) : State :=
  let order (a b : Hart) : Bool := a.lease.pri < b.lease.pri || (a.lease.pri = b.lease.pri && a.lease.granted ≥ b.lease.granted)
  let ts := (s.leasesAt d c).filter fun y => y.lease.elastic && y.lease.nextGrant > y.lease.force.min && y.uid ≠ x.uid
  sendShrinks s (s.podShortfall d c x.lease) (sortBy order ts)

/-- How far growth raises a HELD lease (R132): to the PREF in force, but not past one that a VLEASE has lowered. -/
def Lease.ceiling (l : Lease) : Nat := if l.leaves then 0 else min l.force.pref l.req.pref

/-- Growth (R132): each lease is promised its share of the `f` Pods that are left; what a pending shrink would take stays first. -/
def growLeases (d c : Nat) (s : State) : Nat → List Hart → State
  | _, [] => s
  | f, x :: xs =>
    let free := s.openPods d c x.lease.pri
    let k := min (x.lease.ceiling - x.lease.next) (min f free.length)
    let kept := min k (x.lease.pods.length - x.lease.next)
    growLeases d c (s.onHart x.id fun y =>
      { y with lease := { y.lease with promised := y.lease.promised ++ free.take (k - kept), next := y.lease.next + k } }) (f - k) xs

/-- Growth in a cluster (R132). -/
def State.grow (s : State) (d c : Nat) : State :=
  let order (a b : Hart) : Bool := a.lease.pri > b.lease.pri || (a.lease.pri = b.lease.pri && a.lease.granted ≤ b.lease.granted)
  growLeases d c s (s.freePods d c).length (sortBy order ((s.leasesAt d c).filter fun y => y.lease.elastic && y.lease.next < y.lease.ceiling))

/-! ### VLEASE (R120, R122, R390) -/

/-- The cluster in which a new request waits: the hart's own if its live Pods meet the need, else R138's. -/
def State.requestCluster (s : State) (x : Hart) (need : Nat) : Nat :=
  if need ≤ (s.livePods x.id.die x.id.clu).length then x.id.clu else (s.roomFor x.id.die need).getD x.id.clu

/-- The lease after a VLEASE (R122). A PREF below the grant takes effect at the next VSETL, also at one that goes on with a freeze, of which
R126 says the same Pods (DESIGN CHOICE, log 41): until then the arbiter's own count stands. -/
def State.leaseRequest (s : State) (x : Hart) (r : Request) : Hart :=
  let l := x.lease
  let wait (entered : Nat) : Lease :=
    { l with state := .wait, req := r, entered := entered, die := x.id.die, clu := s.requestCluster x r.need, promised := [], next := 0 }
  let l' := match l.state with
    | .none => if r.min = 0 then { l with req := r } else wait s.cycle
    | .wait => if r.min = 0 then { l with state := .none, req := r, promised := [], next := 0 } else wait l.entered
    | .held => { l with req := r, entered := if r.min > min l.next l.pods.length then s.cycle else l.entered }
    | .suspended => l
  { x with lease := l' }

end Sys2Proof.Machine
end

