-- ==== Sys2Proof/Machine/Round.lean ====
section
/-! DEFINITION. One round of a lease arbiter (R127-R140): a hart that changes its slot (R101), relocation, grants in rank order, the head;
what a round of this cycle has changed, so that a retirement can come before it (R26). -/

namespace Sys2Proof.Machine

/-! ### A hart changes its slot (R101, R238) -/

/-- A hart as it stands in another slot: the registers of that slot which no image carries stay (R223, R234). -/
def Hart.inSlot (x slot : Hart) : Hart :=
  { x with id := slot.id, sel := slot.sel
           trap := { x.trap with stvec := slot.trap.stvec, mtvec := slot.trap.mtvec, mscr := slot.trap.mscr } }

/-- Keep the frames of the hart in focus with its record (R234). -/
def State.packFrames (s : State) : State :=
  let f0 := s.frame s.cur 0
  let f1 := s.frame s.cur 1
  s.onCur fun x => { x with trap := { x.trap with frames := #v[f0, f1] } }

/-- The releases of a hart are those of a hart at its new place (R191, R274). -/
def State.renameTags (s : State) (uid : Nat) (h : HartId) : State :=
  s.onStore fun st => { st with tags := st.tags.map fun t =>
    if uid ≠ 0 ∧ t.2.uid = uid then (t.1, { t.2 with requester := { h with slot := h.slot + t.2.requester.slot / 8 * 8 } }) else t }

/-- A hart comes to stand in a slot, with its frames in the slot's context area (R230). -/
def State.unpack (s : State) (x : Hart) (h : HartId) : State :=
  let back := s.cur.id
  let s := (s.focus h).renameTags x.uid h
  let s := s.onCur fun slot => x.inSlot slot
  let s := if x.id.mgmt then s else (s.setFrame 0 x.trap.frames[0]).setFrame 1 x.trap.frames[1]
  s.focus back

/-- A free slot among some, chosen freely (log 24), whose frames may be written now (R361). -/
def State.pickSlot (s : State) (slots : List HartId) : Option (HartId × State) :=
  let slots := slots.filter fun h => !s.hardwareHeld h.die (contextLoc h) 128
  if slots = [] then none
  else
    let (n, s) := s.fresh
    (slots[n % slots.length]?).map fun h => (h, s)

/-- The lease of a hart that moves to another die: released here, requested afresh there; the vector registers wait for the
new grant, which migrates them (R101). -/
def State.movedLease (s : State) (x : Hart) (d : Nat) (fresh : Bool) : Lease :=
  let l := x.lease
  let f := if l.req.min = 0 then l.force else l.req
  let at_ (need : Nat) : Nat := (s.roomFor d need).getD 0
  let l' : Lease := { l with pods := [], promised := [], next := 0, die := d, stable := false, draining := none, area := none, used := 0, areaWait := false
                             entered := if fresh then s.cycle else l.entered }
  match l.state with
  | .none => l'
  | .wait => { l' with clu := at_ l.req.need }
  | .held => { l' with clu := at_ f.need, state := .suspended, force := f, susp := some ⟨0, false, l.pods.length, none⟩ }
  | .suspended => { l' with clu := at_ l.need }

/-- Move the hart in focus to a slot of another die (R101). -/
def State.moveTo (s : State) (h : HartId) (fresh : Bool) : State :=
  let x := s.cur
  let s := s.packFrames.freeArea x.id.die x.lease
  let y := s.cur
  let y := { y with lease := s.movedLease y h.die fresh, wait := { y.wait with move := none, stall := none }, links := [], allFail := 0 }
  let y := { y with lease := { y.lease with clu := if y.lease.state = .none then h.clu else y.lease.clu } }
  ({ s with cur := x.cleared }).unpack y h

/-! ### The round (R130) -/

/-- Relocation of a request whose need its cluster's live Pods do not meet (R138, R140). -/
def State.relocate (s : State) (h : HartId) : State :=
  let x := s.hart h
  let l := x.lease
  let d := l.die
  if !(l.state = .wait || l.state = .suspended) || l.need ≤ (s.livePods d l.clu).length then s
  else match s.roomFor d l.need with
    | some c => s.onHart h fun x => { x with lease := { x.lease with clu := c, promised := [] } }
    | none =>
      let clean := match l.susp with | some u => !u.mid | none => true
      match (if clean then s.otherDie x l.need else none) with
      | some b =>
        (match s.pickSlot (s.openDieSlots b (s.nodePri x) fun _ => false) with
        | some (b, s) => let back := s.cur.id; ((s.focus h).moveTo b false).focus back
        | none => s)
      | none => match l.susp with
        | some u =>
          if u.raised.isSome || x.occ ≠ .running then s
          else
            let t := (s.focus h).onCur fun x =>
              { x with lease := { x.lease with susp := some { u with raised := some (x.trap.depth + 1) } } }
            let t := t.scalarTrap 0x0F (s.impossible d l.need)
            if t.cur.wait.stall.isSome then s else t.focus s.cur.id
        | none => s

/-- A hart or request waits for a spill area: WAITS counts it once (R223, R233). -/
def State.waitsArea (s : State) (h : HartId) : State :=
  if (s.hart h).lease.areaWait then s
  else (s.onHart h fun x => { x with lease := { x.lease with areaWait := true } }).onDie h.die fun d =>
    { d with splWaits := satAdd d.splWaits 1 }

/-- A request that fits is granted, once it has a spill area (R130, R233). -/
def State.letIn (s : State) (h : HartId) : State :=
  match s.assignArea h with
  | some s => (s.onHart h fun x => { x with lease := { x.lease with areaWait := false } }).grant h (s.hart h).lease.need
  | none => s.waitsArea h

/-- The requests in rank order: each that fits is granted; the first that does not is the head (R130). -/
def grantRound (d c : Nat) (s : State) : List Hart → Option Hart × State
  | [] => (none, s)
  | r :: rs =>
    let x := s.hart r.id
    if s.fits d c x.lease then grantRound d c (s.letIn x.id) rs else (some x, s)

/-- The head's reservation begins, or goes on (R131). -/
def State.setHead (s : State) (d c : Nat) (x : Option Hart) : State :=
  s.onCluster d c fun k => { k with head := x.map fun x =>
    match k.head with
    | some (u, t) => if u = x.uid then (u, t) else (x.uid, s.cycle)
    | none => (x.uid, s.cycle) }

/-- The requests of a cluster in rank order (R128). -/
def State.asking (s : State) (d c : Nat) : List Hart :=
  sortBy (ranksBefore s.cycle) ((s.leasesAt d c).filter fun x =>
    x.lease.asks && !x.wait.preempt && (x.lease.state ≠ .suspended || x.wait.cancel.isNone))

/-- The requests of a cluster that its live Pods cannot meet go elsewhere (R138, R140). -/
def State.relocations (s : State) (d c : Nat) : State := (s.leasesAt d c).foldl (init := s) fun s x => s.relocate x.id

/-- The grants of a round, and what follows for the head or for growth (R130-R132). -/
def State.grants (s : State) (d c : Nat) : State :=
  match grantRound d c s (s.asking d c) with
  | (some x, s) => (s.setHead d c (some x)).shrinkOrders d c x
  | (none, s) => (s.setHead d c none).grow d c

/-! ### A retirement comes before the grants of its cycle (R26) -/

/-- One round of the arbiter of a cluster (R130), with what its grants have changed (R26). -/
def State.arbiterRound (s : State) (d c : Nat) : State :=
  let s := s.relocations d c
  let t := s.grants d c
  let k := s.cluster d c
  { t with rounds := ⟨d, c, (s.leasesAt d c).filter fun x => t.hart x.id ≠ x, k.head, k.podKey⟩ :: t.rounds }

/-- A hart's lease and registers as they stood before the round; an area that it was given goes back. -/
def State.undoGrant (s : State) (x : Hart) : State :=
  let y := s.hart x.id
  if y.uid ≠ x.uid then s
  else
    let s := match x.lease.area, y.lease.area with
      | none, some i => s.onDie x.id.die fun d => { d with splUsed := d.splUsed.erase i }
      | _, _ => s
    s.onHart x.id fun y => { y with lease := { x.lease with areaWait := y.lease.areaWait }, vec := x.vec }

/-- What the round of this cycle did in a cluster is undone. -/
def State.undoRound (s : State) (d c : Nat) : State :=
  match s.rounds.find? fun m => m.die = d && m.clu = c with
  | none => s
  | some m =>
    let s := m.harts.foldl (init := s) State.undoGrant
    { s with rounds := s.rounds.filter fun m => !(m.die = d && m.clu = c) }.onCluster d c fun k => { k with head := m.head, podKey := m.podKey }

/-- The round of this cycle in a cluster, if there has been one, is run on what `f` leaves: `f` comes first (R26). -/
def State.beforeRound (s : State) (d c : Nat) (f : State → State) : State :=
  if s.rounds.any fun m => m.die = d && m.clu = c then (f (s.undoRound d c)).arbiterRound d c else f s

/-- The record of a lease that a round of this cycle has resumed (R270 KIND 5). -/
def State.traceResumed (s : State) (x : Hart) : State :=
  let y := s.hart x.id
  match x.lease.susp with
  | some u => if x.lease.state = .suspended ∧ y.uid = x.uid ∧ y.lease.state = .held ∧ u.cause ≠ 0 then
      s.traceHart y 5 0 y.cvp (BitVec.ofNat 64 (256 + u.cause)) else s
  | none => s

/-- Pods that a round has granted count as freed when they become free again (R94). -/
def State.keepHad (s : State) : State :=
  s.onEngines fun e => { e with reserved := e.reserved.map fun v =>
    { v with had := v.had.filter (s.dieFreePods v.die).contains, slots := v.slots.filter fun h => (s.hart h).occ = .empty } }

/-- A cycle ends: what its rounds did stands (R26, R94, R270), and areas that waited to be written with zeros are tried again (R233). -/
def State.settle (s : State) : State :=
  ((s.rounds.flatMap (·.harts)).foldl (init := s) State.traceResumed).keepHad.retryAreas

/-- `n` core cycles pass. -/
def State.flow (s : State) (n : Nat) : State := if n = 0 then s else s.settle.tick n

end Sys2Proof.Machine
end

