-- ==== Sys2Proof/Machine/Revoke.lean ====
section
/-! DEFINITION. Revocation by force (R232-R236), retirement of Pods (R23-R26), pre-emption (R238) as far as
instructions start them; the events that carry them on stand in `Machine/LeaseEvents.lean`. -/

namespace Sys2Proof.Machine

/-- A revocation by force is decided on (R232, R239): it begins with the drain, and at a boundary it stops the lease at
once. Two are one, with the first CAUSE, or 1 when one of them is a pre-emption. -/
def State.decideRevoke (s : State) (h : HartId) (cause : Nat) : State :=
  let merge (c : Nat) : Nat := if cause = 1 then 1 else c
  s.onHart h fun x =>
    if x.lease.state ≠ .held then x
    else match x.lease.draining, x.lease.susp with
      | some (t, c), _ => { x with lease := { x.lease with draining := some (t, merge c) } }
      | none, some u => { x with lease := { x.lease with susp := some { u with cause := merge u.cause } } }
      | none, none =>
        let y := { x with lease := { x.lease with draining := some (s.cycle, cause), entered := s.cycle } }
        if y.atBoundary then y.stopLease true else y

/-- At the end of a strip a lease that drains stops, clean (R232 step 1). -/
def State.boundary (s : State) : State := s.onCur fun x => x.stopLease true

/-- A revocation that does not drain: the lease stops mid-strip (R232 steps 2 and 3). Whether the member in flight waits is still known at the
spill (R388). -/
def Hart.stopNow (x : Hart) (cause : Nat) : Hart :=
  let cause := match x.lease.draining with | some (_, c) => c | none => cause
  { x with wait := { x.wait.noVwait with vstall := x.wait.vstall }, links := [], allFail := 0
           lease := { x.lease with draining := none, susp := some ⟨cause, true, x.lease.pods.length, none⟩ } }

/-- A held event of R225: those of one code merge. -/
def Hart.holdEvent (x : Hart) (code : BitVec 8) (tval : Word) : Hart :=
  if x.trap.held.any (·.1 = code) then x else { x with trap := { x.trap with held := x.trap.held ++ [(code, tval)] } }

/-! ### Pods (R23-R26) -/

/-- The harts that hold a Pod. -/
def State.holders (s : State) (d p : Nat) : List Hart :=
  (s.leasesAt d (p / 16)).filter fun x => x.lease.pods.contains (p % 16)

/-- The Pod leaves the pool (R25 steps 2 and 3). -/
def Pod.retire (p : Pod) (cause : BitVec 4) : Pod := { p with retired := true, cause := cause, doomed := 0 }

/-- Steps 2 and 3 of R25 for a Pod that no lease holds: nobody's data is left in it. -/
def State.takeOut (s : State) (d p : Nat) (cause : BitVec 4) : State :=
  (s.onPod d p fun q => q.retire cause).onCluster d (p / 16) fun k => { k with podKey := Table.set 256 k.podKey (p % 16) 256 }

/-- The Pods of a die that wait for their retirement and that no lease holds any more are retired (R25). -/
def State.retireDoomed (s : State) (d : Nat) : State :=
  (s.die d).pods.foldl (init := s) fun s e => if e.2.doomed ≠ 0 ∧ s.holders d e.1 = [] then s.takeOut d e.1 e.2.doomed else s

/-- Every such Pod of the package. -/
def State.retireAll (s : State) : State := (List.range 4).foldl (init := s) State.retireDoomed

/-- A retirement takes a Pod that was promised. -/
def Hart.losePromise (x : Hart) (p : Nat) : Hart :=
  if x.lease.promised.contains p then
    { x with lease := { x.lease with promised := x.lease.promised.erase p,
                                     next := if x.lease.state = .held then x.lease.next - 1 else x.lease.next } }
  else x

/-- A Pod leaves with a cause (R25): at once when no lease holds it, else when the lease has been revoked. -/
def State.losePod (s : State) (d p : Nat) (cause : BitVec 4) : State :=
  match s.holders d p with
  | [] =>
    let s := s.mapHarts fun x => if x.lease.die = d ∧ x.lease.clu = p / 16 then x.losePromise (p % 16) else x
    s.takeOut d p cause
  | hs =>
    let s := s.onPod d p fun q => { q with doomed := cause }
    hs.foldl (init := s) fun s x => s.decideRevoke x.id 2

/-- A Pod is retired with a cause (R25, R26), before the grants of the same cycle. -/
def State.retirePod (s : State) (d p : Nat) (cause : BitVec 4) : State :=
  if (s.pod d p).retired ∨ (s.pod d p).doomed ≠ 0 then s else s.beforeRound d (p / 16) fun s => s.losePod d p cause

/-- Firmware writes EOL of a Pod (R22, R23). -/
def State.writeEol (s : State) (d p : Nat) (v : BitVec 16) : State :=
  let s := s.onPod d p fun q => { q with eol := v }
  if (s.pod d p).live ∧ v.toNat < (s.die d).hmargin.toNat then s.retirePod d p 3 else s

/-- Firmware writes HMARGIN (R23): every live Pod below it is retired. -/
def State.writeHmargin (s : State) (d : Nat) (v : BitVec 16) : State :=
  let s := s.onDie d fun x => { x with hmargin := v }
  (s.die d).pods.foldl (init := s) fun s e => if e.2.live ∧ e.2.eol.toNat < v.toNat then s.retirePod d e.1 3 else s

/-! ### Pre-emption (R238) -/

/-- The hart slot of a number (R238). -/
def slotOfNumber (d n : Nat) : HartId := ⟨d, n / 128 % 16, n / 8 % 16, n % 8⟩

/-- A write of PREEMPT (R238): ignored for slot 7, an empty slot, or a hart already being pre-empted; else the lease is
revoked with CAUSE 1, or its request withdrawn until resumption. -/
def State.preempt (s : State) (d n : Nat) : State :=
  let h := slotOfNumber d n
  let x := s.hart h
  if n % 8 = 7 ∨ n ≥ 2048 ∨ x.occ ≠ .running ∨ x.wait.preempt then s
  else
    let s := s.onHart h fun x => { x with wait := { x.wait with preempt := true } }
    if x.lease.state = .held then s.decideRevoke h 1
    else s

/-! ### The page steward's ring (R184) -/

/-- Is the ring enabled (R184)? -/
def Steward.enabled (w : Steward) : Bool := 4 ≤ w.ring.toNat % 32 && w.ring.toNat % 32 ≤ 20

/-- A write of STWRING (R184): the fields of the register; a ring that is not empty is emptied. -/
def Steward.writeRing (w : Steward) (v : Word) : Steward :=
  let w := if w.head ≠ w.tail then { w with tail := w.head } else w
  { w with ring := BitVec.ofNat 64 (v.toNat % 32 + bitsOf v.toNat 55 12 * 2 ^ 12) }

/-- A write of STWTAIL (R184). -/
def Steward.writeTail (w : Steward) (v : Word) : Steward :=
  let t : BitVec 32 := BitVec.ofNat 32 v.toNat
  let n := 2 ^ (w.ring.toNat % 32)
  if w.enabled ∧ (t - w.head).toNat ≤ n ∧ (t - w.tail).toNat ≤ n then { w with tail := t } else w

end Sys2Proof.Machine
end

