-- ==== Sys2Proof/Machine/System.lean ====
section
/-! DEFINITION. Traps on purpose, the return from a trap with its replay or abandon (R229), and the maintenance of
caches and translations (R407-R409). -/

namespace Sys2Proof.Machine

/-! ### TRAP, BRK (R407) -/

/-- TRAP (R407). -/
def execTrap (a : Gpr) (s : State) : Out := scalar (.trap a) s fun s => .trap 0x0A (s.g a) s

/-- BRK (R268, R407). -/
def execBrk (s : State) : Out := scalar .brk s fun s => .trap 0x09 0 s

/-! ### TRET (R229) -/

/-- A block of a replay list stands in the queue again, at its start word (R229). -/
def Replay.block (r : Replay) (y : Vector Word 8) : Block :=
  { addr := r.addr, regs := r.regs, head := r.start, words := [], next := 0, steps := 0, y := y, ended := false, since := r.since }

/-- Replay the aborted strip from its list, with VL limited to VLMAX as a trim (R229, R231). -/
def Hart.replay (x : Hart) : Hart :=
  match x.vec.strip with
  | none => x
  | some t =>
    let vl := min x.vec.vl (x.vlmax x.vec.fmt.width)
    { x with vec := { x.vec with
        vl := vl, vbl := vblOf vl x.vec.blk
        queue := t.replay.map fun r => r.block x.vec.yBlock
        strip := some { x.freshStrip t.replay with trim := vl < x.vec.vl } } }

/-- Abandon the aborted strip (R229): its blocks leave the queue with the aborted status; a strip stands open again. -/
def Hart.abandon (x : Hart) : Hart :=
  match x.vec.strip with
  | none => x
  | some _ => { x with vec := { x.vec with queue := [], status := some true, strip := some (x.freshStrip []) } }

/-- The return from frame `f` (R229). Breakpoints do not match at its target (R268). -/
def Hart.tret (x : Hart) (f : Frame) : Hart :=
  let y := x.swapScratch x.base.level
  let y := { y with
    base := { y.base with level := Level.ofCode f.plv.toNat, pc := f.rpc }
    trap := { y.trap with depth := x.trap.depth - 1, afterTret := true }
    wait := { y.wait with stall := none } }
  if f.vec then (if f.rply then y.replay else y.abandon) else y

/-- TRET (R229, R407). -/
def execTret (s : State) : Out :=
  scalar .tret s fun s =>
    if s.cur.trap.depth = 0 then illegal .tret s
    else .ok () (s.onCur fun x => x.tret (s.frame x (x.trap.depth - 1)))

/-! ### CFLUSH (R408) -/

/-- Every L1 in the reach drops the line of a location (R189). -/
def State.dropLine (s : State) (scp loc : Nat) : State :=
  let f (k : Core) : Core :=
    if flushReaches scp s.cur.id k.id then { k with l1 := k.l1.filter fun e => lineOf e.1 ≠ lineOf loc } else k
  let g (e : Stale) : Stale := if onLine e.lo (e.hi - e.lo) (lineOf loc) then { e with flushed := (scp, s.cur.id, lineOf loc) :: e.flushed } else e
  { s with cores := s.cores.map f, store := { s.store with stale := s.store.stale.map g } }

/-- CFLUSH (R189, R408). -/
def execCflush (a : Gpr) (c : BitVec 3) (s : State) : Out :=
  scalar (.cflush a c) s fun s =>
    let va := s.g a
    if inWindow va then .trap 0x06 va s
    else match resolve s s.cur.cx .read va with
      | .trap t v s => .trap t v s
      | .stall _ _ => .ok () s.advance
      | .ok p s =>
        .ok () (s.dropLine c.toNat p.loc).advance

/-! ### TLBI (R409) -/

/-- Does a TLBI of a mode cover an address under a root (R409): 0 the page of `va`, 1 the root, 2 everything? -/
def tlbiCovers (mode : Nat) (root : BitVec 56) (va : Nat) (t : TlbEntry) : Bool :=
  match mode with
  | 0 => t.ptroot = root && t.page ≤ va && va < t.page + t.size
  | 1 => t.ptroot = root
  | _ => true

/-- Does a TLBI cover the page of an address of a trace buffer (R273)? -/
def tlbiCoversPage (s : State) (mode : Nat) (root : BitVec 56) (va : Nat) (r : BitVec 56) (a : Nat) : Bool :=
  match mode with
  | 0 => r = root && (match walk s r a with
      | .leaf _ _ l => va / pageSize l = a / pageSize l
      | _ => va / 0x10000 = a / 0x10000)
  | 1 => r = root
  | _ => true

/-- Has the hart an access that has used a covered translation and has yet to perform: a buffered store of its open strip, an element that a
VWAITV watches? Its own stores do not count, for they perform after the TLBI (log 7). -/
def Hart.usesCovered (x : Hart) (own : Bool) (covers : BitVec 56 → Nat → Bool) : Bool :=
  (!own && x.vec.strip.any fun t => t.stores.any fun b => b.lane.isNone && !inWindow b.va && covers x.base.ptroot b.va.toNat)
    || x.wait.watch.any fun w => !inWindow w.va && covers x.base.ptroot w.va.toNat

/-- The buffered stores of the hart in focus whose translations have been dropped are translated anew. -/
def retranslate (s : State) (covers : BitVec 56 → Nat → Bool) : List BufStore → Res (List BufStore)
  | [] => .ok [] s
  | b :: bs =>
    (if b.lane.isSome || inWindow b.va || !covers s.cur.base.ptroot b.va.toNat then .ok b s
     else (resolve s s.cur.cx .write b.va).bind fun p s => .ok { b with loc := p.loc, key := p.key } s).bind fun b s =>
      (retranslate s covers bs).bind fun bs s => .ok (b :: bs) s

/-- The stores of the open strip go where the translations now lead (R409). -/
def State.retranslateStrip (s : State) (covers : BitVec 56 → Nat → Bool) : Res Unit :=
  match s.cur.vec.strip with
  | none => .ok () s
  | some t => (retranslate s covers t.stores).bind fun bs s =>
    .ok () (s.onCur fun x => { x with vec := { x.vec with strip := x.vec.strip.map fun t => { t with stores := bs } } })

/-- TLBI (R175, R273, R409): it waits for every access of other harts that has used a dropped translation. -/
def execTlbi (a b : Gpr) (m : BitVec 2) (s : State) : Out :=
  let i := Instr.tlbi a b m
  let w := (s.g b).toNat
  match s.cur.refuses i with
  | some c => .next (s.scalarTrap c i.word)
  | none =>
    if m ≠ 2 ∧ (w % 0x20000 ≠ 0 ∨ w ≥ 2 ^ 56) then .next (s.scalarTrap 0x01 i.word)
    else
      let root : BitVec 56 := BitVec.ofNat 56 w
      let va := (s.g a).toNat
      let covers := tlbiCoversPage s m.toNat root va
      let s1 := s.onStore fun st => { st with tlb := st.tlb.filter fun t => !tlbiCovers m.toNat root va t }
      if s1.cur.usesCovered true covers || s1.others.any (·.usesCovered false covers) then .next (s1.stalled .home)
      else match s1.retranslateStrip covers with
        | .ok _ s2 => .next (s2.tracesRemapped covers).advance
        | .trap c t _ => s1.vectorTrapHere c t
        | .stall q s2 => .next ((s1.keepRequests s2).stalled q)

end Sys2Proof.Machine
end

