-- ==== Sys2Proof/Machine/LeaseInstr.lean ====
section
/-! DEFINITION. Leases, strips, blocks and matrix sessions from the scalar side: VLEASE, VSETL, VFETCH, VSYNC, VCOMMIT,
VREL, MBEGIN, MEND (R158, R368, R369, R390-R394). -/

namespace Sys2Proof.Machine

/-! ### VLEASE (R120, R390) -/

/-- A lease that has become NONE gives its spill area back (R233). -/
def State.returnArea (s : State) : State :=
  if s.cur.lease.state = .none ∧ s.cur.lease.area.isSome then
    (s.freeArea s.cur.id.die s.cur.lease).onCur fun x => { x with lease := { x.lease with area := none, used := 0 } }
  else s

/-- VLEASE (R120, R122, R140, R390). -/
def execVlease (d a : Gpr) (s : State) : Out :=
  scalar (.vlease d a) s fun s =>
    if s.cur.vec.session.isSome then illegal (.vlease d a) s
    else match Request.ofWord ((s.g a).toNat % 2 ^ 32) with
      | none => illegal (.vlease d a) s
      | some r =>
        if !r.ok then illegal (.vlease d a) s
        else if r.need > s.mostLive s.cur.id.die then .trap 0x0F (s.impossible s.cur.id.die r.need) s
        else .ok () (({ s with cur := s.leaseRequest s.cur r } : State).returnArea.put d s.cur.lease.vlreq)

/-! ### The grant at a VSETL (R122, R125, R391 step 4) -/

/-- Pods given up at a VSETL are promised to the cluster's head as far as it needs them (R131). -/
def State.promiseHead (s : State) (d c : Nat) (pods : List Nat) : State :=
  match (s.cluster d c).head with
  | none => s
  | some (u, _) => match s.byUid u with
    | none => s
    | some y =>
      let k := y.lease.need - y.lease.promised.length
      s.onHart y.id fun y => { y with lease := { y.lease with promised := y.lease.promised ++ pods.take k } }

/-- A HELD lease whose SQ or QUOTA has changed: released, and the new request enters (R122). -/
def State.requeue (s : State) : State :=
  let l := s.cur.lease
  let s := s.onCur Hart.dropVector
  { s with cur := s.leaseRequest { s.cur with lease := { s.cur.lease with area := l.area, used := l.used } } l.req }

/-- The grant that a VSETL at element width `w` applies (R122, R125, R126). -/
def State.applyGrant (s : State) (w : Nat) (stable : Bool) : State :=
  let l := s.cur.lease
  let old := l.pods.length
  let target := l.applies
  let pods := if target ≤ old then l.pods.take target else l.pods ++ l.promised.take (target - old)
  let s := if target = old then s
    else (s.scrubPods l.die l.clu (pods.drop old) s.cur.base.key.toNat).regrant pods w
  let s := s.onCur fun x => { x with lease := { x.lease with
    force := l.req, promised := [], next := target, stable := stable, shrink := if target < old then satAdd l.shrink 1 else l.shrink } }
  if target < old then s.promiseHead l.die l.clu (l.pods.drop target) else s

/-- An ordered shrink takes effect at a VSETL that then waits for the Pods that a raised MIN still lacks (R129, R131). -/
def State.shrinkNow (s : State) (w : Nat) : State :=
  let l := s.cur.lease
  if l.pods.length ≤ l.next then s
  else
    let s := (s.regrant (l.pods.take l.next) w).onCur fun x => { x with lease := { x.lease with shrink := satAdd l.shrink 1 } }
    s.promiseHead l.die l.clu (l.pods.drop l.next)

/-- A shrink that meets a revocation at its VSETL is applied first (R133). -/
def State.applyShrink (s : State) (w : Nat) (stable : Bool) : State :=
  let l := s.cur.lease
  if l.leaves then s
  else if l.req.min > l.next then s.shrinkNow w
  else if l.pods.length ≤ l.applies then s
  else s.applyGrant w stable

/-- Can R138 place the hart's request: in a cluster of its die, or of another die? -/
def State.placeable (s : State) (x : Hart) : Bool :=
  (s.roomFor x.lease.die x.lease.need).isSome || (s.otherDie x x.lease.need).isSome

/-- Steps 3 and 4 of R391. -/
def vsetlGrant (s : State) (w : Nat) (stable : Bool) (go : State → Out) : Out :=
  let l := s.cur.lease
  match l.state with
  | .none => .next (s.scalarTrap 0x0F 0)
  | .wait =>
    if s.placeable s.cur then .next (s.stalled .lease)
    else .next (s.scalarTrap 0x0F (s.impossible l.die l.need))
  | .suspended => .next (s.stalled .lease)
  | .held =>
    if l.req.min = 0 then
      match s.closeSession with
      | .stall q s' => .next ((s.keepRequests s').stalled q)
      | .trap _ _ s' => .next (s'.releaseLease.scalarTrap 0x0F 0)
      | .ok _ s' => .next (s'.releaseLease.scalarTrap 0x0F 0)
    else if l.req.sq ≠ l.force.sq ∨ l.req.quota ≠ l.force.quota then
      match s.closeSession with
      | .stall q s' => .next ((s.keepRequests s').stalled q)
      | .trap _ _ s' => .next (s'.requeue.stalled .lease)
      | .ok _ s' => .next (s'.requeue.stalled .lease)
    else if l.req.min > l.next then .next ((s.shrinkNow w).stalled .lease)
    else go (s.applyGrant w stable)

/-- The mask bits that a resumption has left to this VSETL (R125, R137). -/
def State.settleMasks (s : State) (w : Nat) : State :=
  match s.cur.vec.maskPods with
  | none => s
  | some old =>
    let new := s.cur.lease.pods.length
    let n := s.free
    ({ s with free := s.free + 8 } : State).onCur fun x => { x with vec := { x.vec with
      maskPods := none, regs := if old < new then x.vec.regs.undefMasks old new w n else x.vec.regs } }

/-- Step 5 of R391: VFMT, VL, VBL, gD, the new strip. -/
def State.vsetlOpen (s : State) (d a : Gpr) (f : Fmt) (blk : Bool) : State :=
  let s := s.settleMasks f.width
  let vl := min (s.g a).toNat (s.cur.vlmax f.width)
  let vbl := vblOf vl blk
  (s.onCur fun x =>
    let y := { x with vec := { x.vec with fmt := f, blk := blk, vl := vl, vbl := vbl, seenVl := vl, seenVbl := vbl, reopen := none } }
    y.openStrip []).put d (BitVec.ofNat 64 vl)

/-- VSETL (R391). -/
def execVsetl (d a : Gpr) (st b : BitVec 1) (f : BitVec 4) (s : State) : Out :=
  let i := Instr.vsetl d a st b f
  match s.cur.refuses i, Fmt.ofCode f.toNat with
  | some c, _ => .next (s.scalarTrap c i.word)
  | none, none => .next (s.scalarTrap 0x01 i.word)
  | none, some fmt =>
    endStrip s (.setl fun s => s.applyShrink fmt.width (st = 1)) fun s => vsetlGrant s fmt.width (st = 1) fun s => .next (s.vsetlOpen d a fmt (b = 1))

/-! ### VFETCH, VSYNC (R392, R393) -/

/-- A block enters the queue with its snapshot, and the replay list (R158, R216). -/
def State.pushBlock (s : State) (addr : Word) : State :=
  s.onCur fun x =>
    let b : Block := { addr := addr, regs := x.base.g, head := 0, words := [], next := 0, steps := 0, y := x.vec.yBlock, ended := false, since := s.store.serial }
    { x with vec := { x.vec with queue := x.vec.queue ++ [b]
                                 strip := x.vec.strip.map fun t => { t with replay := t.replay ++ [⟨addr, x.base.g, 0, s.store.serial⟩] } } }

/-- TVAL of the fifth VFETCH (R216). -/
def fifthFetch : Word := BitVec.ofNat 64 (2 ^ 63 + 5)

/-- VFETCH (R216, R392). -/
def execVfetch (a : Gpr) (s : State) : Out :=
  let i := Instr.vfetch a
  match s.cur.refuses i with
  | some c => .next (s.scalarTrap c i.word)
  | none => match s.cur.vec.strip with
    | none => if s.cur.vec.reopen.isSome then .next (s.stalled .earlierBlocks) else .next (s.scalarTrap 0x01 i.word)
    | some t =>
      let va := s.g a
      if t.aborted then .next (s.scalarTrap 0x01 i.word)
      else if va.toNat % 8 ≠ 0 then .next (s.scalarTrap 0x04 va)
      else if s.cur.vec.queue.length ≥ Config.vqDepth then .next (s.stalled .queueFull)
      else if t.replay.length ≥ 4 then s.vectorTrapHere 0x07 fifthFetch
      else .next (s.pushBlock va).advance

/-- The status of a VSYNC (R393). -/
def Hart.syncStatus (x : Hart) : Word :=
  let low := match x.vec.status with
    | none => 0
    | some gone => (if gone then 1 else 0) + (if x.vec.strip.any (·.trim) then 2 else 0)
  BitVec.ofNat 64 (low + x.vec.vl * 2 ^ 32)

/-- What the blocks have written to their result slots becomes visible (R158). -/
def Hart.showSlots (x : Hart) : Hart := { x with vec := { x.vec with y := x.vec.yBlock } }

/-- VSYNC (R158, R280, R393). -/
def execVsync (d : Gpr) (s : State) : Out :=
  let i := Instr.vsync d
  match s.cur.refuses i with
  | some c => .next (s.scalarTrap c i.word)
  | none =>
    if s.cur.vec.queue ≠ [] then .next (s.stalled .earlierBlocks)
    else
      let s := s.onCur fun x =>
        { x.showSlots with vec := { x.showSlots.vec with seenVl := x.vec.vl, seenVbl := x.vec.vbl } }
      .next (s.put d s.cur.syncStatus)

/-! ### VCOMMIT, VREL (R394) -/

/-- VCOMMIT (R394). One that ends a strip makes Y0-Y7 visible as a VSYNC does: R158 names only VSYNC, but the programs of R424 to R427 read
them after VCOMMIT alone (DEDUCED, log 23). -/
def execVcommit (s : State) : Out :=
  match s.cur.refuses .vcommit with
  | some c => .next (s.scalarTrap c (Instr.vcommit).word)
  | none => endStrip s .again fun t => .next (if s.cur.stripOpen then t.onCur Hart.showSlots else t).advance

/-- VREL (R370, R394). -/
def execVrel (s : State) : Out :=
  match s.cur.refuses .vrel with
  | some c => .next (s.scalarTrap c (Instr.vrel).word)
  | none =>
    if s.cur.vec.session.isSome then .next (s.scalarTrap 0x01 (Instr.vrel).word)
    else endStrip s .rel fun s =>
      if s.cur.lease.state = .none then .next s.advance
      else
        .next (s.releaseLease.onCur fun x => { x with lease := { x.lease with req := .zero, pri := 0 } }).advance

/-! ### MBEGIN, MEND (R368-R371) -/

/-- Lanes on a side of a square (R371). -/
def squareSide (sq : Nat) : Nat := match sq with | 1 => 8 | 4 => 16 | _ => 32

/-- The hart's session opens (R368). -/
def Hart.openSession (x : Hart) (fp : Bool) : Hart :=
  let side := squareSide x.lease.force.sq
  { x with vec := { x.vec with
      session := some ⟨fp, if fp then 8 * side else 16 * side, 8 * side, x.vec.cxa, []⟩
      marrow := [], regs := { x.vec.regs with w := Vector.replicate 4 Tile.undef } } }

/-- MBEGIN (R368). -/
def execMbegin (k : BitVec 1) (s : State) : Out :=
  let i := Instr.mbegin k
  match s.cur.refuses i with
  | some c => .next (s.scalarTrap c i.word)
  | none =>
    if s.cur.vec.session.isSome ∨ s.cur.stripOpen then .next (s.scalarTrap 0x01 i.word)
    else match s.cur.lease.state with
      | .none => .next (s.scalarTrap 0x0F 0)
      | .wait =>
        if s.placeable s.cur then .next (s.stalled .lease)
        else .next (s.scalarTrap 0x0F (s.impossible s.cur.lease.die s.cur.lease.need))
      | .suspended => .next (s.stalled .lease)
      | .held =>
        if s.cur.lease.force.sq = 0 then .next (s.scalarTrap 0x01 i.word)
        else if s.cur.vec.queue ≠ [] then .next (s.stalled .earlierBlocks)
        else .next (s.onCur fun x => x.openSession (k = 0)).advance

/-- MEND (R369). -/
def execMend (s : State) : Out :=
  let i := Instr.mend
  match s.cur.refuses i with
  | some c => .next (s.scalarTrap c i.word)
  | none =>
    if s.cur.vec.session.isNone ∨ s.cur.stripOpen then .next (s.scalarTrap 0x01 i.word)
    else if s.cur.vec.queue ≠ [] then .next (s.stalled .earlierBlocks)
    else finish s (s.closeSession.bind fun _ s => .ok () s.advance)

end Sys2Proof.Machine
end

