-- ==== Sys2Proof/Machine/Operands.lean ====
section
/-! DEFINITION. The operands of vector instructions (R288, R293, R327-R329): element ranges, elements, masks, the B
operand, the writing of destinations under masks, zeroing, pad and tail, the flags of elements; the vector traps; how
a vector instruction begins and ends. All act on the hart in focus and its running block. -/

namespace Sys2Proof.Machine

/-! ### Elements -/

/-- The VL and VBL of an instruction (R327). -/
structure Range where
  vl : Nat
  vbl : Nat

/-- Where the elements that an instruction may write end: VBL is never below VL (R255). -/
def Range.top (g : Range) : Nat := max g.vl g.vbl

/-- The range of an instruction whose widest format has width `w` (R327). -/
def Hart.range (x : Hart) (w : Nat) : Range :=
  let m := x.vlmax w
  if x.vec.vl ≤ m then ⟨x.vec.vl, x.vec.vbl⟩ else ⟨m, m⟩

/-- The `w` bits of element `e` (R123). -/
def elBits (r w e : Nat) : Nat := r / 2 ^ (w * e) % 2 ^ w

/-- Replace element `e`. -/
def setEl (r w e x : Nat) : Nat := r ^^^ ((elBits r w e ^^^ x % 2 ^ w) * 2 ^ (w * e))

/-- `el(v, e, f)` of R293: a pad element is +0. -/
def Range.el (g : Range) (r w e : Nat) : Nat := if g.vl ≤ e ∧ e < g.vbl then 0 else elBits r w e

/-- A vector register. -/
def State.v (s : State) (r : BitVec 5) : Nat := s.cur.vec.regs.v[r.toNat]'r.isLt

/-- A mask register; m0 is all true (R276). -/
def State.m (s : State) (n : Nat) : Nat := s.cur.vec.regs.m[n % 8]'(Nat.mod_lt _ (by decide))

/-- A bit of a mask register. -/
def State.mbit (s : State) (n e : Nat) : Bool := n % 8 = 0 || (s.m n).testBit e

/-- `act(e)` of R293. -/
def State.act (s : State) (g : Range) (f : VFields) (e : Nat) : Bool := e < g.vl && s.mbit f.msk.toNat e

/-- `put` of R293 into a register's bits. -/
def putEl (g : Range) (zm active : Bool) (w r e x : Nat) : Nat :=
  if active then setEl r w e x
  else if e < g.vl then (if zm then setEl r w e 0 else r)
  else if e < g.vbl then setEl r w e 0
  else r

/-- The running block. -/
def State.block (s : State) : Option Block := s.cur.vec.queue.head?

/-- `g(n)` in a vector block: the snapshot (R158, R293). -/
def State.snap (s : State) (n : BitVec 5) : Word :=
  if n = 0 then 0 else match s.block with | some b => b.regs[n.toNat]'n.isLt | none => 0

/-- `b(e)` of R328: by BK an element of vB, the scalar g(B), the immediate. -/
def State.operandB (s : State) (g : Range) (f : VFields) (w e : Nat) : Nat :=
  match f.bk with
  | 0 => g.el (s.v f.b) w e
  | 1 => (s.snap f.b).toNat % 2 ^ w
  | _ => wrapTo (sextOf f.immN 16) w

/-- The mode of a rounding field (R245, R293). -/
def Hart.modeN (x : Hart) (r : Nat) : Nat := if r = 7 then x.fp.frm.toNat else r

/-- The format of FMT; only words that decode legally are executed. -/
def fmtOf (f : VFields) : Fmt := f.fmt?.getD .i8

/-- The format of FN[7:4]. -/
def fmt2Of (f : VFields) : Fmt := f.fmt2?.getD .i8

/-! ### Writing (R214, R220) -/

/-- Note that elements below `n` of width `w` of a register were written in the strip (R220). -/
def Strip.wrote (t : Strip) (r w n : Nat) : Strip :=
  { t with written := (r, w, n) :: t.written.filter fun e => !(e.1 = r && e.2.1 = w && e.2.2 ≤ n) }

/-- Change the open strip. -/
def State.onStrip (s : State) (f : Strip → Strip) : State :=
  s.onCur fun x => { x with vec := { x.vec with strip := x.vec.strip.map f } }

/-- Write a vector register whose elements below `n` of width `w` change. -/
def State.writeV (s : State) (r : BitVec 5) (w n v : Nat) : State :=
  (s.onCur fun x => { x with vec := { x.vec with regs := { x.vec.regs with v := x.vec.regs.v.set r.toNat v r.isLt } } }).onStrip
    fun t => t.wrote r.toNat w n

/-- Write a mask register whose bits below `n` change; m0 is never written (R277). -/
def State.writeM (s : State) (r n v : Nat) : State :=
  (s.onCur fun x => { x with vec := { x.vec with regs := { x.vec.regs with
    m := x.vec.regs.m.set (r % 8) v (Nat.mod_lt _ (by decide)) } } }).onStrip fun t => t.wrote (32 + r % 8) 1 n

/-- Write a result slot (R158). -/
def State.writeY (s : State) (r : BitVec 4) (v : Nat) : State :=
  s.onCur fun x => { x with vec := { x.vec with
    yBlock := x.vec.yBlock.set (r.toNat % 8) (BitVec.ofNat 64 v) (Nat.mod_lt _ (by decide)) } }

/-- `raise` of R293 for some elements (R250). -/
def State.raise (s : State) (fl : List (Nat × FlagSet)) : State :=
  s.onStrip fun t => fl.foldl (init := t) fun t x => t.raise x.1 x.2

/-- The loop of `each` (R293) over a register of width `w` with bits `r`: the new bits and the flags. -/
def eachBits (s : State) (g : Range) (f : VFields) (w r : Nat) (op : Nat → Nat × FlagSet) : Nat × List (Nat × FlagSet) :=
  (List.range g.top).foldl (init := (r, [])) fun acc e =>
    if s.act g f e then
      let x := op e
      (setEl acc.1 w e x.1, if x.2 = 0 then acc.2 else (e, x.2) :: acc.2)
    else (putEl g f.zm false w acc.1 e 0, acc.2)

/-- `each` (R293) into vD in a format of width `w`, over the range of width `wide`. -/
def State.eachV (s : State) (f : VFields) (wide w : Nat) (op : Range → Nat → Nat × FlagSet) : State :=
  let g := s.cur.range wide
  let r := eachBits s g f w (s.v f.d) (op g)
  (s.writeV f.d w g.top r.1).raise r.2

/-- `each` into mask mD. -/
def State.eachM (s : State) (f : VFields) (wide : Nat) (op : Range → Nat → Bool × FlagSet) : State :=
  let g := s.cur.range wide
  let r := eachBits s g f 1 (s.m f.d.toNat) fun e => let x := op g e; (x.1.toNat, x.2)
  (s.writeM f.d.toNat g.top r.1).raise r.2

/-! ### Trims (R220) -/

/-- Bits `lo` to `hi - 1` of a register become the free value `z` (R125). -/
def undefBits (r lo hi z : Nat) : Nat :=
  if hi ≤ lo then r else r ^^^ ((r / 2 ^ lo % 2 ^ (hi - lo) ^^^ z % 2 ^ (hi - lo)) * 2 ^ lo)

/-- Make the written elements at and above `k` undefined (R220): free values from number `n` on. -/
def VRegs.undefAbove (r : VRegs) (k n : Nat) (es : List (Nat × Nat × Nat)) : VRegs :=
  (es.zipIdx).foldl (init := r) fun r e =>
    let (i, w, m) := e.1
    let z := Config.freeNat (n + e.2)
    if i < 32 then { r with v := r.v.mapFinIdx fun j x _ => if j = i then undefBits x (w * k) (w * m) z else x }
    else { r with m := r.m.mapFinIdx fun j x _ => if j = i - 32 then undefBits x k m z else x }

/-- A trimmed strip's written elements end at `k`. -/
def Strip.trimmed (t : Strip) (k : Nat) : Strip :=
  let cut (e : Nat × Nat × Nat) : Nat × Nat × Nat := (e.1, e.2.1, min e.2.2 k)
  { t with trim := true, written := t.written.map cut }

/-- The strip is trimmed to `k` elements (R220). -/
def Hart.trim (x : Hart) (t : Strip) (k n : Nat) : Hart :=
  { x with vec := { x.vec with
      vl := k, vbl := vblOf k x.vec.blk, regs := x.vec.regs.undefAbove k n t.written, strip := some (t.trimmed k) } }

/-- The strip is trimmed to `k` elements (R220), if it still has more. -/
def State.trim (s : State) (k : Nat) : State :=
  match s.cur.vec.strip with
  | none => s
  | some t =>
    let s' := { s with free := s.free + t.written.length }
    s'.onCur fun x => x.trim t (min k s.cur.vec.vl) s.free

/-! ### Vector traps (R224, R226) -/

/-- A vector trap is pending from the convoy's head (R226); result slots are as at the head; a draining lease stops,
clean (R239). -/
def Hart.pendTrap (x : Hart) (cause : Nat) (tval : Word) : Hart :=
  let head := x.cvp
  let reset (b : Block) : Block := { b with words := [], next := 0, steps := 0 }
  let y := match x.vec.queue with | b :: _ => b.y | [] => x.vec.yBlock
  let queue := match x.vec.queue with | b :: bs => reset b :: bs | [] => []
  ({ x with trap := { x.trap with vtrap := some ⟨BitVec.ofNat 8 cause, tval, head⟩ }
            vec := { x.vec with queue := queue, yBlock := y }, wait := x.wait.noVwait }).stopLease true

/-- A vector instruction or convoy of `s` traps (R224): the strip aborts at the convoy's head. -/
def vectorTrap (s0 s : State) (cause : Nat) (tval : Word) : Out :=
  match s.abortStrip cause with
  | .ok _ s => .next (s.onCur fun x => x.pendTrap cause tval)
  | .trap _ _ s => .next (s.onCur fun x => x.pendTrap cause tval)
  | .stall w s => .next ((s0.keepRequests s).vectorStalls w)

/-! ### A vector instruction -/

/-- The next word of the convoy, or the retirement of the convoy (R160). -/
def Block.advance (b : Block) (y : Vector Word 8) : Block :=
  if b.next + 1 < b.words.length then { b with next := b.next + 1, steps := 0 }
  else { b with head := b.head + max 1 b.words.length, words := [], next := 0, steps := 0, y := y }

/-- Go on to the next word of the running block; a convoy that retires leaves its record (R270 KIND 1). -/
def State.nextWord (s : State) : State :=
  match s.cur.vec.queue with
  | [] => s.onCur fun x => { x with wait := { x.wait with vstall := none } }
  | b :: bs =>
    let last : Bool := b.words.length ≤ b.next + 1
    let now := s.convoyNow s.cur
    let s := if last then s.traceHart s.cur 1 now.2 now.1 (BitVec.ofNat 64 s.cur.vec.vl) else s
    s.onCur fun x => { x with vec := { x.vec with queue := b.advance x.vec.yBlock :: bs
                                                  last := if last then now else x.vec.last }
                              wait := { x.wait with vstall := none } }

/-- Is there a strip open, or about to open after a commit point that waits, and a block running? -/
def State.vectorReady (s : State) : Bool := s.cur.stripOpen && s.cur.vec.queue ≠ []

/-- What comes before a vector instruction: a strip and a block, and the checks of R291 on its own word. -/
def guardVector (i : Instr) (s : State) (go : Out) : Out :=
  if !s.vectorReady then .fault .noStrip
  else if !i.legal || !s.cur.hasFeatures i then vectorTrap s s 0x01 i.word
  else go

/-- A vector instruction: its guard, then its effect, then the next word. A stall leaves it to be done again. -/
def vector (i : Instr) (s : State) (body : State → Res Unit) : Out :=
  guardVector i s <| match body s with
    | .ok _ s' => .next s'.nextWord
    | .trap c t s' => vectorTrap s s' c t
    | .stall w s' => .next ((s.keepRequests s').vectorStalls w)

/-- A vector instruction that cannot trap or stall. -/
def vectorPure (i : Instr) (s : State) (body : State → State) : Out := vector i s fun s => .ok () (body s)

end Sys2Proof.Machine
end

