-- ==== Sys2Proof/Machine/Matrix.lean ====
section
/-! DEFINITION. Matrix instructions and the Marrow (R260-R264, R371-R388): the checks against the session, the tiles,
carries and their fold into the extension area, accumulation, fill and drain. -/

namespace Sys2Proof.Machine

/-! ### Checks against the session (R370, R374, R379, R380) -/

/-- A tile register. -/
def Hart.tile (x : Hart) (t : Nat) : Tile := x.vec.regs.w[t % 4]'(Nat.mod_lt _ (by decide))

/-- The rows of a band: of MFILL at width 32, of MDRAIN at that of its format (R379, R380). -/
def Hart.bandRows (x : Hart) (m : Session) (w : Nat) : Nat := min m.ml (x.vlmax w / m.nl)

/-- Does a band exist? -/
def bandOk (m : Session) (h p : Nat) : Bool := h ≠ 0 && p < m.ml / h

/-- The checks of R370, R374, R379 and R380 that depend on the session; true of every other instruction. -/
def Hart.matrixOk (x : Hart) (i : Instr) : Bool :=
  let cellFmt (m : Session) (f : VFields) : Bool := f.fmt = (if m.kind then 10 else 2)
  let on (p : Session → Bool) : Bool := x.vec.session.any p
  match i with
  | .mzero f => on fun m => cellFmt m f
  | .mopa f | .mopax f => on fun m => m.kind && (x.tile f.d.toNat).defined
  | .mopai f => on fun m => !m.kind && (x.tile f.d.toNat).defined
  | .mdrain f => on fun m =>
      (m.kind != (fmtOf f).isInt) && (x.tile f.a.toNat).defined && bandOk m (x.bandRows m (fmtOf f).width) f.immN
  | .mfill f => on fun m => cellFmt m f && bandOk m (x.bandRows m 32) f.immN
  | _ => true

/-- A matrix instruction: its guard, its checks, its effect in the session. -/
def matrix (i : Instr) (s : State) (body : Session → State → Res Unit) : Out :=
  vector i s fun s =>
    match s.cur.vec.session with
    | none => .trap 0x01 i.word s
    | some m => if s.cur.matrixOk i then body m s else .trap 0x01 i.word s

/-! ### Tiles (R371-R373) -/

/-- Write a tile register. -/
def State.setTile (s : State) (t : Nat) (v : Tile) : State :=
  s.onCur fun x => { x with vec := { x.vec with regs := { x.vec.regs with w := x.vec.regs.w.set (t % 4) v (Nat.mod_lt _ (by decide)) } } }

/-- A defined tile of zeros (R376). -/
def Session.zeroTile (m : Session) : Tile := ⟨0, true, List.replicate (m.ml * m.nl) 0⟩

/-- The lane of an FP cell (R372), on a square of `side` lanes. -/
def cellLane (side i n : Nat) : Nat :=
  let r := i / 8
  let c := n / 8
  let q := side / 8
  64 * (q * (r / 8) + c / 8) + 8 * (r % 8) + c % 8

/-- kc after one k-step. -/
def nextKc (kc : Nat) : Nat := min (kc + 1) 4095

/-! ### Accumulation of floating-point tiles (R260, R261, R377) -/

/-- A value times a power of two. -/
def Val.scaled (k : Int) : Val → Val
  | .fin n m e => .fin n m (e + k)
  | v => v

/-- Is a cell a NaN? -/
def cellNan (c : Nat) : Bool := (valOf .f32 c).isNan

/-- The flags of a product (R253, R260): NV for 0 × ∞ and for a signalling NaN source. -/
def productFlags (a b : Val) : FlagSet := if mulV a b = .invalid then flagNV else 0

/-- One k-step of one cell (R260, R377): the new value, none for a NaN, and the flags. The scale is none where one of
MOPAX's scales is a NaN. -/
def kStep (scale : Option Int) (a b : Val) (cell : Nat) : Option Nat × FlagSet :=
  match scale with
  | none => (none, productFlags a b)
  | some k =>
    match fmaV 0 (a.scaled k) b (valOf .f32 cell) with
    | .invalid => (none, flagNV)
    | .quiet => (none, 0)
    | r => let x := deliver .f32 0 r; (some x.1, x.2)

/-- The k-steps of one cell: a cell that is NaN keeps its value, and only the product raises flags; one that becomes NaN takes its origin
(R261). -/
def cellSteps (lane : Nat) (a b : Nat → Val) (scale : Nat → Option Int) : List Nat → Nat → Nat × FlagSet → Nat × FlagSet
  | [], _, r => r
  | j :: js, kc, r =>
    if cellNan r.1 then cellSteps lane a b scale js (nextKc kc) (r.1, r.2 ||| productFlags (a j) (b j))
    else
      let x := kStep (scale j) (a j) (b j) r.1
      cellSteps lane a b scale js (nextKc kc) (x.1.getD (0x7FC00000 + lane * 4096 + kc), r.2 ||| x.2)

/-- The k-steps of the running member that are done: before its lease stopped, or before a fold that had to wait (R235, R384, R388). -/
def Hart.stepsDone (x : Hart) : Nat := match x.vec.queue with | b :: _ => b.steps | [] => 0

/-- Note how many k-steps of the running member are done. -/
def State.setSteps (s : State) (j : Nat) : State :=
  s.onCur fun x => match x.vec.queue with
    | b :: bs => { x with vec := { x.vec with queue := { b with steps := j } :: bs } }
    | [] => x

/-- The panel width kb (R373). -/
def Hart.kb (x : Hart) (m : Session) (w : Nat) : Nat := x.vlmax w / m.ml

/-- The k-steps of an instruction (R373). -/
def Hart.kSteps (x : Hart) (f : VFields) (m : Session) : List Nat := List.range (x.kb m (max (fmtOf f).width (fmt2Of f).width))

/-- Those that it has still to do. -/
def Hart.kStepsLeft (x : Hart) (f : VFields) (m : Session) : List Nat := (x.kSteps f m).drop x.stepsDone

/-- Some k-steps of MOPA and MOPAX (R377): `scale` gives the scale of row `i`, column `n` and k-step `j`. -/
def mopaSteps (f : VFields) (scale : State → Session → Range → Nat → Nat → Nat → Nat → Option Int) (m : Session) (js : List Nat) (s : State) :
    State :=
  let fa := fmtOf f
  let fb := fmt2Of f
  let w := max fa.width fb.width
  let g : Range := ⟨s.cur.vec.vl, s.cur.vec.vbl⟩
  let kb := s.cur.kb m w
  let t := s.cur.tile f.d.toNat
  let va := s.v f.a
  let vb := s.v f.b
  let side := m.nl / 8
  let cells := (t.cells.zipIdx).map fun e =>
    let i := e.2 / m.nl
    let n := e.2 % m.nl
    cellSteps (cellLane side i n) (fun j => valOf fa (g.el va fa.width (i * kb + j)))
      (fun j => valOf fb (g.el vb fb.width (n * kb + j))) (scale s m g kb i n) js t.kc (e.1.toNat, 0)
  let fl := cells.foldl (fun a x => a ||| x.2) 0
  (s.setTile f.d.toNat ⟨min (t.kc + js.length) 4095, true, cells.map fun x => BitVec.ofNat 32 x.1⟩).onStrip fun t => t.raiseBare fl

/-- The scale of MOPA (R377). -/
def mopaScale (_ : State) (_ : Session) (_ : Range) (_ _ _ _ : Nat) : Option Int := some 0

/-- MOPA (R377). -/
def execMopa (f : VFields) (s : State) : Out :=
  matrix (.mopa f) s fun m s => .ok () (mopaSteps f mopaScale m (s.cur.kStepsLeft f m) s)

/-- The scale of MOPAX (R377). -/
def mopaxScale (f : VFields) (s : State) (m : Session) (g : Range) (kb i n j : Nat) : Option Int :=
  let ve := s.v f.e
  let ml := m.ml
  let nblk := kb / 32
  let sa := g.el ve 8 (i * nblk + j / 32)
  let sb := g.el ve 8 (ml * nblk + n * nblk + j / 32)
  if sa = 0xFF ∨ sb = 0xFF then none else some ((sa : Int) - 127 + (sb - 127))

/-- MOPAX (R377). -/
def execMopax (f : VFields) (s : State) : Out :=
  matrix (.mopax f) s fun m s => .ok () (mopaSteps f (mopaxScale f) m (s.cur.kStepsLeft f m) s)

/-! ### The Marrow (R381-R385) -/

/-- A cell: tile, row, column. -/
abbrev CellId := Nat × Nat × Nat

/-- The cell of an entry. -/
def MarrowEntry.cell (e : MarrowEntry) : CellId := (e.tile, e.row, e.col)

/-- The count of a cell's committed or pending entry, 0 when it has none. -/
def marrowCount (es : List MarrowEntry) (c : CellId) (pending : Bool) : Int :=
  match es.find? fun e => e.cell = c && e.pending = pending with | some e => e.count | none => 0

/-- Has the cell a pending entry? -/
def hasPending (es : List MarrowEntry) (c : CellId) : Bool := es.any fun e => e.cell = c && e.pending

/-- Change the Marrow entries of the lease. -/
def State.onMarrow (s : State) (f : List MarrowEntry → List MarrowEntry) : State :=
  s.onCur fun x => { x with vec := { x.vec with marrow := f x.vec.marrow } }

/-- A carry takes a pending entry of its own (R382). -/
def State.newMarrow (s : State) (c : CellId) (n : Int) : State := (s.onMarrow fun es => es ++ [⟨c.1, c.2.1, c.2.2, n, true⟩]).marrowWritten 1

/-- Why a lease is full (R382, R385): bits 13 to 16 of TVAL. -/
def fullSpace : Nat := 2 ^ 13
def fullCount : Nat := 2 ^ 14
def fullExt : Nat := 2 ^ 15
def fullNoExt : Nat := 2 ^ 16

/-- Carry Quota (R385). -/
def carryQuota (s : State) (c : CellId) (why : Nat) : Res Unit :=
  .trap 0x08 (BitVec.ofNat 64 (s.cur.vec.marrow.length % 2 ^ 13 + why + c.1 * 2 ^ 17 + c.2.1 * 2 ^ 19 + c.2.2 * 2 ^ 28)) s

/-- Where the counts of a cell lie, for reading and writing (R384). -/
def extSpot (s : State) (m : Session) (c : CellId) : Res Spot :=
  let va := m.cellAddr c
  (resolve s s.cur.cx .readWrite va).bind fun p s =>
    if spaceOf p.loc = .host then .trap 0x06 va s
    else match s.check p 4 true with
      | some e => .trap e va s
      | none => if s.store.poisoned p.loc 4 then .trap 0x0E va s else .ok p s

/-- A word that stands for unpredictable counts (R386): a free value, which is no word that a session has written. -/
def strangeCounts (n : Nat) : Nat := 2 ^ 33 + n % 2 ^ 32

/-- The counts of some cells with their places (R384 step 2); where the area no longer holds what the session wrote, or an access of it has been
refused, they are unpredictable (R386). -/
def readCounts (s : State) (m : Session) : List CellId → Res (List (CellId × Spot × Nat))
  | [] => .ok [] s
  | c :: cs => (extSpot s m c).bind fun p s =>
    let (w, s) := s.performRead s.cur.cx p 4 .plain
    let (w, s) := if w = m.word c then (w, s) else let (n, s) := s.fresh; (strangeCounts n, s)
    (readCounts s m cs).bind fun r s => .ok ((c, p, w) :: r) s

/-- Are counts within ±32,767 (R384)? -/
def extFits (p : Int × Int) : Bool := p.1.natAbs ≤ 32767 && p.2.natAbs ≤ 32767 && (p.1 + p.2).natAbs ≤ 32767

/-- Write the counts of a cell; `old` is the word found there. -/
def State.putCounts (s : State) (m : Session) (c : CellId) (p : Spot) (old : Nat) (v : Int × Int) : State :=
  let w := extWord v.1 v.2
  let s := (s.setAD s.cur.base.ptroot (m.cellAddr c) p true).performWrite s.cur.cx p 4 w .plain
  (s.noteExt c (if old = m.word c then w else badCounts)).onStrip fun t =>
    { t with ext := if t.ext.contains c then t.ext else c :: t.ext }

/-- The fold of R384, steps 2 and 3. -/
def foldMarrow (s : State) (m : Session) (c : CellId) (why : Nat) : Res Unit :=
  let es := s.cur.vec.marrow
  let cells := (es.map MarrowEntry.cell).eraseDups
  (readCounts s m cells).bind fun rs s =>
    let new (r : CellId × Spot × Nat) : Int × Int :=
      let x := extPair r.2.2
      (x.1 + marrowCount es r.1 false, x.2 + marrowCount es r.1 true)
    if rs.any fun r => !extFits (new r) then carryQuota s c (why + fullExt)
    else
      let s := rs.foldl (fun s r => s.putCounts m r.1 r.2.1 r.2.2 (new r)) s
      .ok () (s.onMarrow fun _ => [])

/-- The carry that is added to Xp after a fold (R384 step 4). -/
def carryExt (s : State) (m : Session) (c : CellId) (n : Int) (why : Nat) : Res Unit :=
  (readCounts s m [c]).bind fun rs s =>
    match rs with
    | r :: _ =>
      let x := extPair r.2.2
      if !extFits (x.1, x.2 + n) then carryQuota s c (why + fullExt)
      else .ok () (s.putCounts m c r.2.1 r.2.2 (x.1, x.2 + n))
    | [] => .ok () s

/-- full() of R384 and R385: the carry `n` of cell `c` found the lease full. -/
def fullLease (s : State) (m : Session) (c : CellId) (n : Int) (why : Nat) : Res Unit :=
  let quota := 256 * s.cur.lease.force.quota
  if s.cur.lease.force.mode then carryQuota s c why
  else if m.area = 0 then carryQuota s c (why + fullNoExt)
  else
    let direct : Bool := quota = 0 || n.natAbs > 127
    -- every page that the fold writes is translated first, the carry's own among them when it goes to Xp
    let ready : Res Unit := if direct then (extSpot s m c).bind fun _ s => .ok () s else .ok () s
    ready.bind fun _ s => (foldMarrow s m c why).bind fun _ s =>
      if direct then carryExt s ((s.cur.vec.session).getD m) c n why
      else .ok () (s.newMarrow c n)

/-- Is a cell marked reset in the open strip (R383)? -/
def State.cellReset (s : State) (c : CellId) : Bool := s.cur.vec.strip.any fun t => t.isReset c

/-- carry(cell, n) of R382. -/
def carry (s : State) (c : CellId) (n : Int) : Res Unit :=
  match s.cur.vec.session with
  | none => .ok () s
  | some m =>
    let es := s.cur.vec.marrow
    let mc := if s.cellReset c then 0 else marrowCount es c false
    if (mc + marrowCount es c true + n).natAbs > 127 then fullLease s m c n fullCount
    else if hasPending es c then
      .ok () (s.onMarrow fun es => es.map fun e => if e.cell = c ∧ e.pending then { e with count := e.count + n } else e)
    else if es.length < 256 * s.cur.lease.force.quota then
      .ok () (s.newMarrow c n)
    else fullLease s m c n fullSpace

/-- Mark rows of a tile reset (R383): pending entries freed, Xp 0. -/
def resetRows (s : State) (m : Session) (tile : Nat) (rows : List Nat) : Res Unit :=
  let hit (c : CellId) : Bool := c.1 = tile && rows.contains c.2.1
  let s := s.onMarrow fun es => es.filter fun e => !(e.pending && hit e.cell)
  let ext := match s.cur.vec.strip with | some t => t.ext.filter hit | none => []
  (changeExt s m (fun _ p => (p.1, 0)) ext).bind fun _ s =>
    .ok () (s.onStrip fun t => { t with resets := t.resets ++ ((rows.map fun r => (tile, r)).filter fun r => !t.resets.contains r) })

/-! ### MZERO (R376) -/

/-- MZERO's effect on a tile. -/
def zeroTile (s : State) (m : Session) (t : Nat) : Res Unit :=
  (resetRows s m t (List.range m.ml)).bind fun _ s => .ok () (s.setTile t m.zeroTile)

/-- MZERO (R376). -/
def execMzero (f : VFields) (s : State) : Out := matrix (.mzero f) s fun m s => zeroTile s m f.d.toNat

/-! ### MOPAI (R264, R378) -/

/-- A 24-bit sum and the carry it sends (R264). -/
def wrap24 (x : Int) : Int × Int :=
  if x ≥ 2 ^ 23 then (x - 2 ^ 24, 1) else if x < -(2 ^ 23) then (x + 2 ^ 24, -1) else (x, 0)

/-- One k-step over the cells from number `k` on (R378). -/
def intStep (nl tile : Nat) (prod : Nat → Nat → Int) : Nat → List (BitVec 32) → State → Res (List (BitVec 32))
  | _, [], s => .ok [] s
  | k, a :: as, s =>
    let i := k / nl
    let n := k % nl
    let x := wrap24 (a.toInt + prod i n)
    let r : Res Unit := if x.2 = 0 then .ok () s else carry s (tile, i, n) x.2
    r.bind fun _ s => (intStep nl tile prod (k + 1) as s).bind fun bs s => .ok (BitVec.ofInt 32 x.1 :: bs) s

/-- The product of a cell in a k-step of a MOPAI (R378). -/
def State.mopaiProduct (s : State) (f : VFields) (m : Session) (j i n : Nat) : Int :=
  let fa := fmtOf f
  let fb := fmt2Of f
  let g : Range := ⟨s.cur.vec.vl, s.cur.vec.vbl⟩
  let kb := s.cur.kb m (max fa.width fb.width)
  intVal fa (f.fn.getLsbD 3) (g.el (s.v f.a) fa.width (i * kb + j)) * intVal fb (f.fn.getLsbD 2) (g.el (s.v f.b) fb.width (n * kb + j))

/-- One k-step of a MOPAI. -/
def mopaiStep (f : VFields) (m : Session) (j : Nat) (s : State) : Res Unit :=
  let t := s.cur.tile f.d.toNat
  (intStep m.nl f.d.toNat (s.mopaiProduct f m j) 0 t.cells s).bind fun cells s =>
    .ok () ((s.setTile f.d.toNat ⟨nextKc t.kc, true, cells⟩).setSteps (j + 1))

/-- Some k-steps of a MOPAI in order; those before one whose fold must wait stay done (R384). -/
def mopaiSteps (f : VFields) (m : Session) : List Nat → State → Res Unit
  | [], s => .ok () s
  | j :: js, s => match mopaiStep f m j s with
    | .ok _ s' => mopaiSteps f m js s'
    | .trap c t s' => .trap c t s'
    | .stall w s' => .stall w (s.keepRequests s')

/-- MOPAI (R378). -/
def execMopai (f : VFields) (s : State) : Out :=
  let i := Instr.mopai f
  guardVector i s <| match s.cur.vec.session with
    | none => vectorTrap s s 0x01 i.word
    | some m =>
      if s.cur.matrixOk i then
        match mopaiSteps f m (s.cur.kStepsLeft f m) s with
        | .ok _ s' => .next s'.nextWord
        | .trap c t s' => vectorTrap s s' c t
        | .stall w s' => .next (s'.vectorStalls w)
      else vectorTrap s s 0x01 i.word

/-! ### MFILL (R379) -/

/-- The value and the carry of an INT cell that is filled with `v` (R379). -/
def fillCell (v : Int) : Int × Int :=
  let a := sextOf (wrapTo v 24) 24
  (a, (v - a) / 2 ^ 24)

/-- The carries of a filled band, from element `e` on. -/
def fillCarries (nl tile row : Nat) : Nat → List Int → State → Res Unit
  | _, [], s => .ok () s
  | e, v :: vs, s =>
    let c := (fillCell v).2
    let r : Res Unit := if c = 0 then .ok () s else carry s (tile, row + e / nl, e % nl) c
    r.bind fun _ s => fillCarries nl tile row (e + 1) vs s

/-- MFILL (R379). -/
def execMfill (f : VFields) (s : State) : Out :=
  matrix (.mfill f) s fun m s =>
    let d := f.d.toNat
    let g : Range := ⟨s.cur.vec.vl, s.cur.vec.vbl⟩
    let h := s.cur.bandRows m 32
    let row := f.immN * h
    let va := s.v f.a
    let xs := (List.range (h * m.nl)).map fun e => g.el va 32 e
    let first : Res Unit := if (s.cur.tile d).defined then .ok () s else zeroTile s m d
    first.bind fun _ s => (resetRows s m d ((List.range h).map (row + ·))).bind fun _ s =>
      let t := s.cur.tile d
      let vals := xs.map fun x => sextOf x 32
      let band := if m.kind then xs.map (BitVec.ofNat 32) else vals.map fun v => BitVec.ofInt 32 (fillCell v).1
      let cells := t.cells.take (row * m.nl) ++ band ++ t.cells.drop ((row + h) * m.nl)
      let r : Res Unit := if m.kind then .ok () s else fillCarries m.nl d row 0 vals s
      r.bind fun _ s => .ok () (s.setTile d { t with cells := cells })

/-! ### MDRAIN (R262, R380) -/

/-- The mantissa field of a drained origin value (R262). -/
def drainOrigin (dst : Fmt) (c : Nat) : Nat × FlagSet :=
  if dst = .e2m1 then (0, flagNV)
  else if dst = .e4m3 then (0x7F, 0)
  else (infBits dst + c % 2 ^ 23 / 2 ^ (23 - manBits dst), 0)
where
  /-- The all-ones exponent. -/
  infBits (f : Fmt) : Nat := (2 ^ expBits f - 1) * 2 ^ manBits f

/-- An FP cell in a format (R262, R380). -/
def drainCell (dst : Fmt) (rm c : Nat) : Nat × FlagSet :=
  if dst = .f32 then (c, 0)
  else if c / 2 ^ 22 = 0x1FF then drainOrigin dst c
  else convert .f32 dst rm false c

/-- An INT cell's value in I32 or I64 (R380). -/
def drainInt (dst : Fmt) (v : Int) : Nat × FlagSet :=
  if dst = .i32 then
    if v < -(2 ^ 31) then (2 ^ 31, flagNV) else if v > 2 ^ 31 - 1 then (2 ^ 31 - 1, flagNV) else (wrapTo v 32, 0)
  else (wrapTo v 64, 0)

/-- The extension counts of a cell as a drain reads them (R382, R386): unpredictable ones are a free value. -/
def extCount (s : State) (m : Session) (c : CellId) : Res Int :=
  let sum (w : Nat) : Int := (if s.cellReset c then 0 else (extPair w).1) + (extPair w).2
  let unknown : Res Int := let (n, s) := s.fresh; .ok (if n % 2 = 0 then ((n / 2 : Nat) : Int) else -((n / 2 + 1 : Nat) : Int)) s
  if m.area = 0 then .ok 0 s
  else match readMem s s.cur.cx (m.cellAddr c) 4 .plain with
    | .stall w s => .stall w s
    | .trap _ _ _ => unknown
    | .ok w s' => if w = m.word c then .ok (sum w) s' else unknown

/-- The elements of an INT band, from cell `k` on (R380). -/
def drainInts (dst : Fmt) (m : Session) (tile : Nat) : Nat → List (BitVec 32) → State → Res (List (Nat × FlagSet))
  | _, [], s => .ok [] s
  | k, a :: as, s =>
    let c : CellId := (tile, k / m.nl, k % m.nl)
    let es := s.cur.vec.marrow
    let mc := (if s.cellReset c then 0 else marrowCount es c false) + marrowCount es c true
    (extCount s m c).bind fun x s =>
      (drainInts dst m tile (k + 1) as s).bind fun r s => .ok (drainInt dst (a.toInt + 2 ^ 24 * (mc + x)) :: r) s

/-- Pack elements of width `w`, element 0 lowest. -/
def packEls (w : Nat) (xs : List Nat) : Nat := xs.foldr (fun x a => x % 2 ^ w + a * 2 ^ w) 0

/-- MDRAIN (R380). -/
def execMdrain (f : VFields) (s : State) : Out :=
  matrix (.mdrain f) s fun m s =>
    let dst := fmtOf f
    let w := dst.width
    let h := s.cur.bandRows m w
    let row := f.immN * h
    let t := s.cur.tile f.a.toNat
    let band := (t.cells.drop (row * m.nl)).take (h * m.nl)
    let rm := s.cur.modeN f.rm
    let els : Res (List (Nat × FlagSet)) :=
      if m.kind then .ok (band.map fun c => drainCell dst rm c.toNat) s else drainInts dst m f.a.toNat (row * m.nl) band s
    els.bind fun xs s =>
      let fl := xs.foldl (fun a x => a ||| x.2) 0
      .ok () ((s.writeV f.d w (s.cur.vlmax w) (packEls w (xs.map (·.1)))).onStrip fun t => t.raiseBare fl)

/-! ### A member in flight when its lease stops (R232 step 3, R235, R388) -/

/-- The next member of the running convoy. -/
def Block.nextInstr (b : Block) : Option Instr := (b.words[b.next]?).bind fun w => (decodeVector w).toOption

/-- The member in flight. -/
def Hart.inFlight (x : Hart) : Option Instr := match x.vec.queue with | b :: _ => b.nextInstr | [] => none

/-- How the member in flight settles once its lease has stopped mid-strip, and whether the spill may follow. A MOPA, MOPAX or MOPAI does some of
its k-steps, how many the Zemir's timing decides: a free value; one whose fold waits completes that k-step (R388). An MDRAIN or MFILL that
waits completes. A trap that comes of it leaves the lease clean (R239). -/
def State.settleMember (s : State) : State × Bool :=
  let waits : Bool := s.cur.wait.vstall.isSome
  let went (o : Out) : State × Bool := match o with
    | .next t =>
      if t.cur.trap.vtrap.isSome then
        (t.onCur fun x => { x with lease := { x.lease with susp := x.lease.susp.map fun u => { u with mid := false } } }, true)
      else (t, t.cur.wait.vstall.isNone)
    | _ => (s, true)
  let ksteps (f : VFields) (go : Session → List Nat → State → Res Unit) : State × Bool :=
    match s.cur.vec.session with
    | none => (s, true)
    | some m =>
      let left := s.cur.kStepsLeft f m
      let (n, s) := s.fresh
      let k := n % (left.length + 1)
      let js := left.take (if waits then max 1 k else k)
      match go m js s with
      | .ok _ t => ((t.setSteps (s.cur.stepsDone + js.length)).onCur fun x => { x with wait := { x.wait with vstall := none } }, true)
      | .stall w t => (t.vectorStalls w, false)
      | .trap c v t => went (vectorTrap s t c v)
  match s.cur.inFlight with
  | some (.mopa f) => ksteps f fun m js s => .ok () (mopaSteps f mopaScale m js s)
  | some (.mopax f) => ksteps f fun m js s => .ok () (mopaSteps f (mopaxScale f) m js s)
  | some (.mopai f) => ksteps f (mopaiSteps f)
  | some (.mdrain f) => if waits then went (execMdrain f s) else (s, true)
  | some (.mfill f) => if waits then went (execMfill f s) else (s, true)
  | _ => (s, true)

end Sys2Proof.Machine
end

