-- ==== Sys2Proof/Machine/VectorFloat.lean ====
section
/-! DEFINITION. Floating-point vector arithmetic (R331-R336), conversion and MX quantisation (R256, R337, R338),
floating-point reductions (R258, R259, R350, R351). -/

namespace Sys2Proof.Machine

/-! ### Arithmetic (R331) -/

/-- An instruction of R331: `op` takes the mode, the format and the encodings of A, B and E. -/
def fpVec (i : Instr) (f : VFields) (op : Nat → Fmt → Nat → Nat → Nat → Nat × FlagSet) (s : State) : Out :=
  vectorPure i s fun s =>
    let x := fmtOf f
    let w := x.width
    let rm := s.cur.modeN f.rm
    let va := s.v f.a
    let ve := s.v f.e
    s.eachV f w w fun g e => op rm x (g.el va w e) (s.operandB g f w e) (g.el ve w e)

/-- VFADD (R331). -/
def execVfadd (f : VFields) (s : State) : Out :=
  fpVec (.vfadd f) f (fun rm x a b _ => deliver x rm (addV rm (valOf x a) (valOf x b))) s

/-- VFSUB (R331). -/
def execVfsub (f : VFields) (s : State) : Out :=
  fpVec (.vfsub f) f (fun rm x a b _ => deliver x rm (addV rm (valOf x a) (valOf x b).neg)) s

/-- VFMUL (R331). -/
def execVfmul (f : VFields) (s : State) : Out :=
  fpVec (.vfmul f) f (fun rm x a b _ => deliver x rm (mulV (valOf x a) (valOf x b))) s

/-- VFDIV (R331). -/
def execVfdiv (f : VFields) (s : State) : Out :=
  fpVec (.vfdiv f) f (fun rm x a b _ => deliver x rm (divV (precOf x) (valOf x a) (valOf x b))) s

/-- VFSQRT (R331). -/
def execVfsqrt (f : VFields) (s : State) : Out :=
  fpVec (.vfsqrt f) f (fun rm x a _ _ => deliver x rm (sqrtV (precOf x) (valOf x a))) s

/-- VFMA (R331). -/
def execVfma (f : VFields) (s : State) : Out :=
  fpVec (.vfma f) f (fun rm x a b c => deliver x rm (fmaV rm (valOf x a) (valOf x b) (valOf x c))) s

/-- VFMIN (R331). -/
def execVfmin (f : VFields) (s : State) : Out := fpVec (.vfmin f) f (fun _ x a b _ => minMaxEnc x false a b) s

/-- VFMAX (R331). -/
def execVfmax (f : VFields) (s : State) : Out := fpVec (.vfmax f) f (fun _ x a b _ => minMaxEnc x true a b) s

/-- The sign that VFSGN gives (R332). -/
def sgnOf (op : Nat) (a b : Bool) : Bool := match op with | 0 => b | 1 => !b | _ => a != b

/-- VFSGN (R332). -/
def execVfsgn (f : VFields) (s : State) : Out :=
  fpVec (.vfsgn f) f (fun _ x a b _ =>
    let top := x.width - 1
    (a % 2 ^ top + (if sgnOf (bitsOf f.fnN 1 0) (a.testBit top) (b.testBit top) then 2 ^ top else 0), 0)) s

/-- VFRCP (R333). -/
def execVfrcp (f : VFields) (s : State) : Out :=
  fpVec (.vfrcp f) f (fun rm x a _ _ => deliver x rm (divV (precOf x) (.fin false 1 0) (valOf x a))) s

/-- 1 ÷ √(m × 2^e) to at least `prec` bits and a sticky fraction, for `m ≠ 0`. -/
def rsqrtFin (prec m : Nat) (e : Int) : Exact :=
  let k0 := 2 * prec + Nat.log2 m + 2
  let k := k0 + (if (e + k0) % 2 = 0 then 0 else 1)
  let n := 2 ^ k / m
  let r := isqrt n
  .num false r ((-e - k) / 2) (r * r * m ≠ 2 ^ k)

/-- 1 ÷ √x (R333). -/
def rsqrtV (prec : Nat) (x : Val) : Exact :=
  match x with
  | .nan true => .invalid
  | .nan false => .quiet
  | .inf false => .zero false
  | .inf true => .invalid
  | .fin n m e => if m = 0 then .pole n else if n then .invalid else rsqrtFin prec m e

/-- VFRSQ (R333): always RNE. -/
def execVfrsq (f : VFields) (s : State) : Out :=
  fpVec (.vfrsq f) f (fun _ x a _ _ => deliver x 0 (rsqrtV (precOf x) (valOf x a))) s

/-! ### VFEXP2F (R334) -/

/-- Bits after the point in the evaluation of 2^f (log 13). -/
def expPrec : Nat := 192

/-- ln 2 × 2^192, from the series of 1 ÷ (k × 2^k). -/
def ln2Fix : Nat := (List.range 208).foldl (fun a k => a + 2 ^ 224 / ((k + 1) * 2 ^ (k + 1))) 0 / 2 ^ 32

/-- The sum of t^k ÷ k! from term `k` on, in units of 2^-192. -/
def expTerms (t : Int) : Nat → Nat → Int → Int
  | 0, _, _ => 0
  | fuel + 1, k, term => term + expTerms t fuel (k + 1) (term * t / ((k + 1) * 2 ^ expPrec : Nat))

/-- 2^(z × 2^u) × 2^192, for an exponent in [-0.5, 0.5] and u ≤ 0 (log 13). -/
def exp2Fix (z : Int) (u : Int) : Nat :=
  let fx : Int := z * 2 ^ (u + expPrec).toNat
  (expTerms (fx * ln2Fix / 2 ^ expPrec) 48 0 (2 ^ expPrec)).toNat

/-- The result of VFEXP2F for a number that is not 0 (R334). -/
def exp2Fin (neg : Bool) (m : Nat) (e : Int) : Nat × FlagSet :=
  let r0 := (roundShift 0 neg m false (-e)).1
  let r : Int := if neg then -(r0 : Int) else r0
  let u := min e 0
  let z : Int := unitsOf neg m e u - r * 2 ^ (-u).toNat
  let v := if z = 0 then (0x3F800000, 0) else roundTo .f32 0 false (exp2Fix z u) (-(expPrec : Int)) true
  let n := max (-1000) (min r 1000)
  match valOf .f32 v.1 with
  | .fin _ mv ev => let y := deliver .f32 0 (.num false mv (ev + n) false); (y.1, v.2 ||| y.2)
  | _ => v

/-- VFEXP2F of an encoding (R334). -/
def exp2Enc (a : Nat) : Nat × FlagSet :=
  match valOf .f32 a with
  | .nan q => (nanEnc .f32, if q then flagNV else 0)
  | .inf neg => (if neg then 0 else infEnc .f32, 0)
  | .fin neg m e => if m = 0 then (0x3F800000, 0) else exp2Fin neg m e

/-- VFEXP2F (R334). -/
def execVfexp2f (f : VFields) (s : State) : Out := fpVec (.vfexp2f f) f (fun _ _ a _ _ => exp2Enc a) s

/-! ### VFRINT, VFSCALE, VFGETX (R335) -/

/-- VFRINT (R335). -/
def execVfrint (f : VFields) (s : State) : Out := fpVec (.vfrint f) f (fun rm x a _ _ => rintEnc x rm a) s

/-- x × 2^n (R335). Beyond ±4,096 the exponent of every format is passed, so `n` is limited to that. -/
def scaleEnc (x : Fmt) (rm a : Nat) (n : Int) : Nat × FlagSet :=
  match valOf x a with
  | .fin neg m e =>
    if m = 0 then (a % 2 ^ x.width, 0) else deliver x rm (.num neg m (e + max (-4096) (min n 4096)) false)
  | .inf _ => (a % 2 ^ x.width, 0)
  | v => deliver x rm v.exact

/-- VFSCALE (R335). -/
def execVfscale (f : VFields) (s : State) : Out :=
  fpVec (.vfscale f) f (fun rm x a b _ => scaleEnc x rm a (if f.bk = 2 then sextOf f.immN 16 else sextOf b x.width)) s

/-- VFGETX of an encoding (R335). -/
def getxEnc (x : Fmt) (a : Nat) : Nat × FlagSet :=
  let top := 2 ^ (x.width - 1)
  match valOf x a with
  | .nan q => (top - 1, if q then flagNV else 0)
  | .inf _ => (top - 1, 0)
  | .fin _ m e => (if m = 0 then top else wrapTo ((Nat.log2 m : Int) + e) x.width, 0)

/-- VFGETX (R335). -/
def execVfgetx (f : VFields) (s : State) : Out := fpVec (.vfgetx f) f (fun _ x a _ _ => getxEnc x a) s

/-! ### VFCLASS, VFCMP (R336) -/

/-- VFCLASS (R336). -/
def execVfclass (f : VFields) (s : State) : Out :=
  vectorPure (.vfclass f) s fun s =>
    let x := fmtOf f
    let va := s.v f.a
    s.eachM f x.width fun g e => (f.immN.testBit (classOf x (g.el va x.width e)), 0)

/-- VFCMP (R336). -/
def execVfcmp (f : VFields) (s : State) : Out :=
  vectorPure (.vfcmp f) s fun s =>
    let x := fmtOf f
    let va := s.v f.a
    s.eachM f x.width fun g e => compareV f.rm (valOf x (g.el va x.width e)) (valOf x (s.operandB g f x.width e))

/-! ### VCVT (R337) -/

/-- One conversion of VCVT (R337): equal formats copy, but for a NaN. -/
def cvtEnc (src dst : Fmt) (rm : Nat) (unsigned : Bool) (b : Nat) : Nat × FlagSet :=
  if src = .e8m0 ∧ dst = .e8m0 then (b, 0) else convert src dst rm unsigned b

/-- VCVT (R337). -/
def execVcvt (f : VFields) (s : State) : Out :=
  vectorPure (.vcvt f) s fun s =>
    let src := fmt2Of f
    let dst := fmtOf f
    let rm := s.cur.modeN f.rm
    let va := s.v f.a
    s.eachV f (max src.width dst.width) dst.width fun g e =>
      cvtEnc src dst rm (bitsOf f.fnN 3 3 = 1) (g.el va src.width e)

/-! ### VQMX (R256, R338) -/

/-- The greatest exponent of an element format (R256). -/
def emax : Fmt → Int
  | .e4m3 => 8 | .e5m2 => 15 | _ => 2

/-- The scale of a block from the values of its active elements (R256). -/
def mxScale (dst : Fmt) (xs : List Val) : Nat :=
  let tops : List Int := xs.filterMap fun v => match v with
    | .fin _ m e => if m = 0 then none else some ((Nat.log2 m : Int) + e)
    | _ => none
  if xs.any fun v => match v with | .fin .. => false | _ => true then 0xFF
  else match tops with
    | [] => 0
    | t :: ts => (min 254 (max 0 (ts.foldl max t - emax dst + 127))).toNat

/-- An element under its block's scale (R256, R338): overflow saturates in every format. -/
def mxEnc (dst : Fmt) (rm scale : Nat) (v : Val) : Nat × FlagSet :=
  if scale = 0xFF then (nanEnc dst, 0)
  else match v with
    | .fin neg m e =>
      let r := deliver dst rm (if m = 0 then .zero neg else .num neg m (e + 127 - scale) false)
      if r.2 &&& flagOF = 0 then r else ((if neg then signBit dst else 0) + maxEnc dst, r.2)
    | _ => (nanEnc dst, 0)

/-- VQMX (R338). -/
def execVqmx (f : VFields) (s : State) : Out :=
  vectorPure (.vqmx f) s fun s =>
    let src := fmt2Of f
    let dst := fmtOf f
    let wide := max (max src.width dst.width) 8
    let g := s.cur.range wide
    let rm := s.cur.modeN f.rm
    let va := s.v f.a
    let val (e : Nat) : Val := valOf src (g.el va src.width e)
    let blk (b : Nat) : List Nat := ((List.range 32).map (32 * b + ·)).filter fun e => s.act g f e
    let nb := (g.vl + 31) / 32
    let scales := (List.range nb).map fun b => mxScale dst ((blk b).map val)
    let bad := ((List.range nb).flatMap blk).filter fun e => match val e with | .fin .. => false | _ => true
    let ve := (scales.zipIdx).foldl (init := s.v f.e) fun r x => setEl r 8 x.2 x.1
    let s' := s.eachV f wide dst.width fun _ e => mxEnc dst rm (scales.getD (e / 32) 0) (val e)
    (s'.writeV f.e 8 nb ve).raise (bad.map fun e => (e, flagNV))

/-! ### VFRED (R258, R350) -/

/-- One node of the tree (R350): 0 SUM, 1 MAX, 2 MIN. -/
def fredNode (op rm : Nat) (x : Fmt) (a b : Nat) : Nat × FlagSet :=
  match op with
  | 0 => deliver x rm (addV rm (valOf x a) (valOf x b))
  | 1 => minMaxEnc x true a b
  | _ => minMaxEnc x false a b

/-- One level of the tree (R258): nodes `2j` and `2j + 1`, whose join covers elements from `j × step` on. -/
def treeLevel (node : Nat → Nat → Nat × FlagSet) (step : Nat) : Nat → List (Option Nat) → List (Option Nat) × List (Nat × FlagSet)
  | j, a :: b :: rest =>
    let r := treeLevel node step (j + 1) rest
    match a, b with
    | some a, some b => let x := node a b; (some x.1 :: r.1, (j * step, x.2) :: r.2)
    | some a, none => (some a :: r.1, r.2)
    | none, y => (y :: r.1, r.2)
  | _, [a] => ([a], [])
  | _, [] => ([], [])

/-- The root of the tree, and the flags of its nodes (R258). -/
def treeRoot (node : Nat → Nat → Nat × FlagSet) : Nat → Nat → List (Option Nat) → Option Nat × List (Nat × FlagSet)
  | 0, _, xs => (xs.head?.join, [])
  | fuel + 1, step, xs =>
    if xs.length ≤ 1 then (xs.head?.join, [])
    else
      let r := treeLevel node step 0 xs
      let q := treeRoot node fuel (2 * step) r.1
      (q.1, r.2 ++ q.2)

/-- s alone as the result, with a NaN made canonical (R350, R351). -/
def alone (x : Fmt) (b : Nat) : Nat × FlagSet :=
  match valOf x b with
  | .nan q => (nanEnc x, if q then flagNV else 0)
  | _ => (b, 0)

/-- VFRED (R350). -/
def execVfred (f : VFields) (s : State) : Out :=
  vectorPure (.vfred f) s fun s =>
    let x := fmtOf f
    let w := x.width
    let g := s.cur.range w
    let node := fredNode f.bk (s.cur.modeN f.rm) x
    let va := s.v f.a
    let leaves := (List.range g.vl).map fun e => if s.act g f e then some (g.el va w e) else none
    let t := treeRoot node leaves.length 2 leaves
    let first := ((List.range g.vl).find? fun e => s.act g f e).getD 0
    let init := (s.snap f.b).toNat % 2 ^ w
    let joins : Bool := bitsOf f.fnN 5 5 = 1
    let r : Nat × FlagSet := match t.1 with
      | some a => if joins then node init a else (a, 0)
      | none => if joins then alone x init else (0, 0)
    (s.writeY f.qs r.1).raise ((first, r.2) :: t.2)

/-! ### VFREDO (R259, R351) -/

/-- The active elements below `n`. -/
def State.activeBelow (s : State) (f : VFields) (n : Nat) : List Nat :=
  let g := s.cur.range (fmtOf f).width
  (List.range (min n g.vl)).filter fun e => s.act g f e

/-- The number that joins an ordered sum, where one does. -/
def State.fredoJoin (s : State) (f : VFields) : Option Nat :=
  if bitsOf f.fnN 5 5 = 1 then some ((s.snap f.b).toNat % 2 ^ (fmtOf f).width) else none

/-- The ordered sum of some elements in their order, with the flags of each addition (R259). -/
def State.fredoSum (s : State) (f : VFields) (es : List Nat) : Nat × List (Nat × FlagSet) :=
  let x := fmtOf f
  let el (e : Nat) : Nat := (s.cur.range x.width).el (s.v f.a) x.width e
  let rm := s.cur.modeN f.rm
  let add (acc : Nat × List (Nat × FlagSet)) (e : Nat) : Nat × List (Nat × FlagSet) :=
    let r := deliver x rm (addV rm (valOf x acc.1) (valOf x (el e)))
    (r.1, (e, r.2) :: acc.2)
  match es, s.fredoJoin f with
  | es, some init => es.foldl add (init, [])
  | e :: es, none => es.foldl add (el e, [])
  | [], none => (0, [])

/-- VFREDO (R351). -/
def execVfredo (f : VFields) (s : State) : Out :=
  vectorPure (.vfredo f) s fun s =>
    let es := s.activeBelow f s.cur.vec.vl
    match es, s.fredoJoin f with
    | [], some init => let r := alone (fmtOf f) init; (s.writeY f.qs r.1).raise [(0, r.2)]
    | _, _ => let r := s.fredoSum f es; (s.writeY f.qs r.1).raise r.2

end Sys2Proof.Machine
end

