-- ==== Sys2Proof/Machine/LeaseEvents.lean ====
section
/-! DEFINITION. The rounds of the lease arbiters (R127), revocations by force carried on (R232, R233), pre-emption (R238),
moves between dies (R100, R101), retirement of Pods (R23-R26). -/

namespace Sys2Proof.Machine

/-! ### The rounds of all arbiters (R127, R130) -/

/-- The clusters whose arbiters have something to do: a lease or request, or a head to forget. -/
def State.arbiters (s : State) : List (Nat × Nat) :=
  ((s.harts.filter fun x => x.lease.state ≠ .none).map (fun x => (x.lease.die, x.lease.clu))
    ++ (s.clusters.filter fun k => k.head.isSome).map fun k => (k.die, k.clu)).eraseDups

/-- The rounds of all arbiters (R127, R130): retirements come first. None is run in a package that has halted (R29). -/
def State.allRounds (s : State) : State :=
  if s.halted then s
  else
    let s := s.retireAll
    s.arbiters.foldl (init := s) fun s k => s.arbiterRound k.1 k.2

/-- The clock goes on to the next multiples of 64, with the rounds of each. -/
def passRounds : Nat → State → State
  | 0, s => s
  | k + 1, s => passRounds k ((s.flow (64 - s.cycle % 64)).allRounds)

/-- `n` core cycles pass. A round is the first event of its cycle, so that what happens in the cycle is taken into the next one (R127,
R133). -/
def State.pass (s : State) (n : Nat) : State :=
  let s := s.retireAll
  if s.arbiters = [] then s.flow n
  else
    let t := passRounds ((s.cycle + n) / 64 - s.cycle / 64) s
    t.flow (s.cycle + n - t.cycle)

/-- ARBITER_ROUND (R127, R130): the clock goes on to the next multiple of 64, when every arbiter runs its round. -/
def execArbiterRound (die clu : Nat) (s : State) : Out :=
  if die ≥ 4 ∨ clu ≥ 16 then .next s else .next (s.pass (64 - s.cycle % 64))

/-! ### The second stage (R131) -/

/-- Revoke leases by force, one after another, while the head still lacks what they hold (R131). -/
def revokeFor (d c : Nat) (head : Lease) (s : State) : List Hart → State
  | [] => s
  | x :: xs =>
    let pods : Bool := s.podShortfall d c head > 0 && x.lease.pods ≠ []
    let quota : Bool := s.quotaShortfall d c head > 0 && x.lease.force.quota > 0
    revokeFor d c head (if pods || quota then s.decideRevoke x.id 4 else s) xs

/-- REVOCATION_DEADLINE (R131): 2,048 cycles after the head's reservation began. -/
def execRevocationDeadline (die clu : Nat) (s : State) : Out :=
  match (s.cluster die clu).head with
  | none => .next s
  | some (u, t) => match s.byUid u with
    | none => .next s
    | some x =>
      if s.cycle < t + 2048 then .next s
      else
        let order (a b : Hart) : Bool := a.lease.pri < b.lease.pri || (a.lease.pri = b.lease.pri && a.lease.granted ≥ b.lease.granted)
        let ts := (s.leasesAt die clu).filter fun y => y.lease.state = .held && y.lease.draining.isNone && y.lease.susp.isNone
          && y.lease.pri < x.lease.effPri s.cycle && y.uid ≠ u
        .next (revokeFor die clu x.lease s (sortBy order ts))

/-! ### Revocation carried on (R232, R233) -/

/-- DRAIN_TIMEOUT (R232): no strip boundary within 2,048 cycles of the decision. -/
def execDrainTimeout (h : HartId) (s : State) : Out :=
  let s := s.focus h
  match s.cur.lease.draining with
  | none => .next s
  | some (t, c) =>
    if s.cur.lease.state ≠ .held then .next s
    else if s.cur.atBoundary then .next (s.onCur fun x => x.stopLease true)
    else if s.cycle < t + Config.boundaryLimit then .next s
    else .next (s.onCur fun x => x.stopNow c)

/-- Words of a spill area (R233). -/
def Mem.writeWords (b : Mem) (loc : Nat) (words : List Nat) : Mem := (words.zipIdx).foldl (init := b) fun b w => b.writeN (loc + 8 * w.2) 8 w.1

/-- Slot 0 owns the frames of an area that it writes (R58). -/
def State.claimArea (s : State) (loc n : Nat) : State :=
  s.onStore fun st => { st with owners :=
    (List.range ((n + 0xFFFF) / 0x10000)).foldl (init := st.owners) fun o i => Table.set freeOwner o (ownerKey (loc + i * 0x10000)) 0 }

/-- The number of a VFMT register. -/
def Vec.vfmt (v : Vec) : Nat := fmtCode v.fmt + (if v.blk then 16 else 0)

/-- ML of a session, 0 without one. -/
def Vec.ml (v : Vec) : Nat := (v.session.map (·.ml)).getD 0

/-- NL of a session, 0 without one. -/
def Vec.nl (v : Vec) : Nat := (v.session.map (·.nl)).getD 0

/-- The steps of a member of a convoy (R235): the k-steps of a matrix accumulation, else its element groups. -/
def Hart.memberSteps (x : Hart) (w : Nat) : Nat :=
  let groups (width : Nat) : Nat := (x.vec.vbl + perGroup width * x.lanes - 1) / max 1 (perGroup width * x.lanes)
  let ksteps (f : VFields) : Nat := match x.vec.session with | some m => (x.kSteps f m).length | none => 0
  match (decodeVector w).toOption with
  | some (.mopa f) | some (.mopax f) | some (.mopai f) => ksteps f
  | some (.vbar _) | some (.vstop _) | some (.vnop _) | none => groups x.vec.fmt.width
  | some i => groups (match vectorOp i with | some o => (fmtOf o.2).width | none => x.vec.fmt.width)

/-- How far a VFREDO in flight has come (R235, R237): the next element's index, a free value, for the Zemir's timing decides it. -/
def Hart.fredoIndex (x : Hart) (n : Nat) : Nat := Config.freeNat n % (x.vec.vl + 1)

/-- A progress word (R233, R235): members that are done stand at their last step, a matrix accumulation in flight at its k-steps done; how far
another has come is a free value, for the Zemir's timing decides it (log 19). -/
def progressWord (x : Hart) (n i : Nat) : Nat :=
  match x.vec.queue with
  | b :: _ =>
    match b.words[i]? with
    | none => 0
    | some w =>
      let all := x.memberSteps w
      let now := match b.nextInstr with
        | some (.mopa _) | some (.mopax _) | some (.mopai _) => b.steps
        | some (.vfredo f) => x.fredoIndex (n + 1) / max 1 (perGroup (fmtOf f).width * x.lanes)
        | _ => Config.freeNat n % (all + 1)
      i + 4 + (if i < b.next then all else if i = b.next then now else 0) * 2 ^ 8
  | [] => 0

/-- Bytes 208 to 255 of a spill area (R233): what a VFREDO in flight has summed up in its own format, its next index, its flags. -/
def State.fredoWords (s : State) (mid : Bool) (n : Nat) : List Nat :=
  match s.cur.inFlight with
  | some (.vfredo f) =>
    if mid then
      let k := s.cur.fredoIndex (n + 1)
      let r := s.fredoSum f (s.activeBelow f k)
      [r.1 % 2 ^ (fmtOf f).width, k + (r.2.foldl (fun a e => a ||| e.2) (0 : FlagSet)).toNat * 2 ^ 32, 0, 0, 0, 0]
    else List.replicate 6 0
  | _ => List.replicate 6 0

/-- Bytes 0 to 255 of a spill area (R233). -/
def State.spillHeader (s : State) (kind cause pods n : Nat) : List Nat :=
  let x := s.cur
  let t : List Replay := match x.vec.strip with | some t => t.replay | none => []
  let mid : Bool := kind = 1
  [0x4C50535A + 2 ^ 32 + pods * 2 ^ 48 + x.lease.force.sq * 2 ^ 56, kind + cause * 2 ^ 8 + x.base.key.toNat * 2 ^ 16 + t.length * 2 ^ 24,
   x.vec.vl, x.vec.vbl, x.vec.vfmt, x.vec.ml, x.vec.nl, x.cvp.toNat]
  ++ (List.range 4).map (fun i => if mid then progressWord x n i else 0)
  ++ x.vec.yBlock.toList.map (·.toNat)
  ++ (match x.vec.strip with
    | some t => (t.flags ||| t.eidx.flags).toNat :: t.eidx.toList.map (·.toNat)
    | none => 0 :: List.replicate 5 0xFFFFFFFF)
  ++ s.fredoWords mid n

/-- The replay list in a spill area (R233). -/
def spillReplay (x : Hart) : List Nat :=
  let t : List Replay := match x.vec.strip with | some t => t.replay | none => []
  let entry (r : Replay) : List Nat := r.addr.toNat :: r.start :: (r.regs.toList.drop 1).map (·.toNat)
  t.flatMap entry ++ List.replicate (33 * (4 - t.length)) 0

/-- A Marrow entry in a spill area (R233, R381). -/
def spillMarrow (e : MarrowEntry) : Nat :=
  wrapTo e.count 8 + (if e.pending then 2 ^ 8 else 0) + (e.tile + e.row * 2 ^ 2 + e.col * 2 ^ 11) * 2 ^ 16

/-- The image that a revocation writes (R233). The lane images have a layout of the Zemir's own (log 19): their bytes are
free values, and what they hold stays with the hart. -/
def State.writeSpill (s : State) (loc pods cause : Nat) (mid : Bool) : State :=
  let x := s.cur
  let n := s.free
  let s := { s with free := s.free + 5 }
  let used := 65536 + 20480 * 64 * pods
  let s := s.onCur fun x => { x with lease := { x.lease with used := max x.lease.used used } }
  s.overwrite loc used 0 fun b =>
    (((b.writeN (loc + 65536) (20480 * 64 * pods) (Config.freeNat n)).writeWords loc (s.spillHeader (if mid then 1 else 0) cause pods (n + 1))).writeWords
      (loc + 256) (spillReplay x)).writeWords (loc + 32768) (x.vec.marrow.map spillMarrow ++ List.replicate (4096 - x.vec.marrow.length) 0)

/-- The lease of the hart in focus becomes SUSPENDED (R232 step 5): Pods and quota are free. A load that the hart waits for is abandoned
(R319). -/
def State.suspend (s : State) (cause : Nat) : State :=
  let l := s.cur.lease
  let s := s.abandonAccess.onCur fun x =>
    let y := { x with
      wait := { x.wait with vstall := none }
      links := [], allFail := 0
      lease := { x.lease with state := .suspended, pods := [], promised := [], next := 0, revoke := satAdd x.lease.revoke 1 } }
    if (cause = 2 ∨ cause = 4) ∧ y.trap.stvec.getLsbD 0 then y.holdEvent 0x22 (BitVec.ofNat 64 cause) else y
  (s.traceHart s.cur 5 0 s.cur.cvp (BitVec.ofNat 64 cause)).retireDoomed l.die

/-- SPILL_DONE (R232, R233): the lease that has stopped is spilled and becomes SUSPENDED; a refused write fails the hart. -/
def execSpillDone (h : HartId) (s : State) : Out :=
  let s := s.focus h
  let l := s.cur.lease
  match l.susp, l.area with
  | some u, some i =>
    if l.state ≠ .held then .next s
    else
      let d := s.cur.id.die
      let loc := (s.die d).areaLoc i
      let n := 65536 + 20480 * 64 * l.pods.length
      if s.hardwareHeld d loc n then .next s
      else if s.areaOpen d loc n then
        let (s, done) := if u.mid then s.settleMember else (s, true)
        let u := s.cur.lease.susp.getD u
        .next (if !done then s else ((s.claimArea loc n).writeSpill loc l.pods.length u.cause u.mid).suspend u.cause)
      else
        let x := s.cur
        let s := s.hartFails ⟨2, 0x06, x.place.hix.toNat, x.base.pc, 0, some x.id, 0, none⟩
        .next (if s.cur.lease.state = .none then s.retireDoomed l.die else s)
  | some u, none => if l.state = .held then .next (s.suspend u.cause) else .next s
  | none, _ => .next s

/-! ### Pre-emption (R238) -/

/-- PREEMPT (R238). -/
def execPreempt (die n : Nat) (s : State) : Out := .next (s.preempt die n)

/-- The words of the scalar image (R234). -/
def scalarImage (x : Hart) : List Nat :=
  let frame (f : Frame) : List Nat :=
    [f.cause.toNat, f.epc.toNat, f.tval.toNat, f.rpc.toNat, f.plv.toNat + (if f.vec then 4 else 0) + (if f.rply then 8 else 0), 0, 0, 0]
  let stream (q : Stream) : List Nat :=
    [q.base.toNat, q.s1.toNat + q.s2.toNat * 2 ^ 32, q.n1.toNat + q.len.toNat * 2 ^ 32, q.esz.toNat + q.space.toNat * 2 ^ 8, q.idx.toNat,
     if q.active then 1 else 0]
  [1 + x.base.level.code * 2 ^ 8 + x.trap.depth * 2 ^ 10 + x.base.key.toNat * 2 ^ 16] ++ (x.base.g.toList.drop 1).map (·.toNat)
  ++ [x.base.pc.toNat, x.fp.flags.toNat, x.fp.frm.toNat] ++ x.fp.eidx.toList.map (·.toNat)
  ++ [x.vec.seenVl, x.vec.seenVbl, x.vec.vfmt, x.vec.ml, x.vec.nl, x.vec.cxa.toNat, x.trap.emuv.toNat, x.ev.mhbase.toNat,
      x.ev.evl.toNat + x.ev.out * 256, x.ev.evr.toNat, x.lease.vlreq.toNat, x.cvp.toNat, x.cyc.scalar.toNat, x.cyc.vector.toNat,
      x.cyc.memory.toNat, x.cyc.lease.toNat, x.cyc.idle.toNat] ++ x.vec.y.toList.map (·.toNat)
  ++ [x.place.hix.toNat + x.place.gsz.toNat * 2 ^ 16 + x.place.node.toNat * 2 ^ 32, x.place.graph.toNat, x.base.ptroot.toNat,
      x.trap.uscr.toNat, x.trap.sscr.toNat, (x.trap.frames.toList.getD (x.trap.depth - 1) .zero).rpc.toNat, x.stripst.toNat]
  ++ x.trap.frames.toList.flatMap frame ++ [x.trap.bpa0.toNat, x.trap.bpa1.toNat, x.trap.bpctl.toNat, 0, 0, 0, 0, 0]
  ++ x.qs.q.toList.flatMap stream ++ List.replicate 320 0

/-- The engine holds the pre-empted hart in focus until a slot is free (R238 steps 4 and 5). -/
def State.park (s : State) : State :=
  let x := s.cur
  let (home, graph, slot, prio) := match s.runOf x with
    | some r => (r.home, r.graph, r.slot, r.prio)
    | none => (x.id.die, 0, x.base.key, x.lease.pri)
  ({ s with cur := x.cleared } : State).onEngines fun e => { e with
    parked := e.parked ++ [x]
    ready := e.ready ++ [⟨home, graph, x.place.node.toNat, slot, prio, s.cycle, some x.uid, false⟩] }

/-- PREEMPT_COMPLETE (R238 steps 3 to 5). -/
def execPreemptComplete (h : HartId) (s : State) : Out :=
  let s := s.focus h
  let x := s.cur
  if x.occ ≠ .preempted ∨ x.lease.state = .held ∨ x.qs.cq0 ≠ [] ∨ x.qs.cq1 ≠ [] ∨ x.qs.xq ≠ [] ∨ x.ev.out ≠ 0
      ∨ x.wait.cancel.isSome then .next s
  else match s.assignArea h with
    | none => .next (s.waitsArea h)
    | some s =>
      let s := s.packFrames
      let x := s.cur
      let loc := (s.die x.id.die).areaLoc (x.lease.area.getD 0)
      if s.hardwareHeld x.id.die loc 0x10000 then .next s
      else if !s.areaOpen x.id.die loc 0x10000 then
        .next (s.hartFails ⟨2, 0x06, x.place.hix.toNat, x.base.pc, 0, some x.id, 0, none⟩)
      else
        let s := (s.claimArea loc 0x10000).onCur fun x => { x with lease := { x.lease with used := max x.lease.used 0x10000, areaWait := false } }
        .next (s.overwrite loc 0x10000 0 fun b =>
          (if x.lease.state = .suspended then b else b.writeWords loc (s.spillHeader 2 1 0 0)).writeWords (loc + 4096) (scalarImage x)).park

/-- Does an entry go before another: higher effective priority, earlier entry, lower slot, lower index (R93, R94)? -/
def Ready.before (now : Nat) (x y : Ready) : Bool :=
  let a := x.effPri now
  let b := y.effPri now
  a > b || (a = b && (x.entered < y.entered || (x.entered = y.entered
    && (x.slot.toNat < y.slot.toNat || (x.slot = y.slot && x.node ≤ y.node)))))

/-- The first of some entries in the order of R93. -/
def firstReady (now : Nat) : List Ready → Option Ready
  | [] => none
  | x :: xs => match firstReady now xs with
    | none => some x
    | some y => if x.before now y then some x else some y

/-- The slots in which a pre-empted hart may restart (R94, R238): of its die, of its cluster when the node's PLACE is CLUSTER. -/
def State.restartSlots (s : State) (r : Ready) (x : Hart) : List HartId :=
  let cluster : Bool := match s.runOf x with | some r => r.place = 0 | none => false
  (((List.range 16).filter fun c => !cluster || c = x.id.clu).map fun c => s.openSlots x.id.die c (r.effPri s.cycle) (·.is r)).find? (· ≠ [])
    |>.getD []

/-- A hart's state at its restart (R238): a WAIT request is made again. A hart without a grant has given its area back (R233). -/
def State.restarted (s : State) (x : Hart) : Hart :=
  let y := { x.forgetRecent with occ := .running, wait := { x.wait with preempt := false, stall := none } }
  let y := if y.lease.state = .suspended then y else { y with lease := { y.lease with area := none, used := 0, areaWait := false } }
  if y.lease.state = .wait then
    { y with lease := { y.lease with entered := s.cycle, promised := [], next := 0, clu := s.requestCluster y y.lease.req.need } }
  else y

/-- PREEMPT_RESTART (R94, R238): the first pre-empted hart of the die that has a place restarts. -/
def execPreemptRestart (die : Nat) (s : State) : Out :=
  let mine (r : Ready) : Option Hart := r.parked.bind fun u => s.engines.parked.find? fun x => x.uid = u && x.id.die = die
  let can (r : Ready) : Bool := match mine r with
    | some x => !(s.restartSlots r x).isEmpty
    | none => false
  match firstReady s.cycle (s.engines.ready.filter can) with
  | none => .next s
  | some r => match mine r with
    | none => .next s
    | some x => match s.pickSlot (s.restartSlots r x) with
      | none => .next s
      | some (h, s) =>
        let s := if x.lease.state = .suspended then s else s.freeArea x.id.die x.lease
        .next ((s.unpack (s.restarted x) h).onEngines fun e => { e with
          parked := e.parked.filter fun y => y.uid ≠ x.uid
          ready := e.ready.erase r
          reserved := e.reserved.filter fun v => !v.is r })

/-! ### Moves between dies (R100, R101) -/

/-- The request that a hart's lease makes on the die to which it moves (R101). -/
def Lease.movedRequest (l : Lease) : Request :=
  match l.state with | .none => .zero | .held => (if l.req.min = 0 then l.force else l.req) | .suspended => l.force | .wait => l.req

/-- The slots of a die that a hart may move to (R94, R100). -/
def State.moveSlots (s : State) (x : Hart) (b : Nat) : List HartId := s.openDieSlots b (s.nodePri x) fun _ => false

/-- Are the links of a die and its places such that a hart may move there (R31, R43, R96, R100)? -/
def State.moveRoom (s : State) (x : Hart) (b : Nat) : Bool :=
  let q := x.lease.movedRequest
  b < 4 && b ≠ x.id.die && (s.die x.id.die).up.getLsbD b && !(s.moveSlots x b).isEmpty
    && (match s.runOf x with
      | some r => s.joined r.home b && (s.runDies r.id x.uid).all (s.joined b)
      | none => true)
    && (q.need = 0 || (List.range 16).any fun c => q.need ≤ (s.livePods b c).length && s.qsum b c + 256 * q.quota ≤ 4096)

/-- Does R100 let a hart move to make room: its own conditions, and a reservation of its die that has stood for 64 µs? One that has been
left in place for that reservation stays there (R101). -/
def State.movable (s : State) (x : Hart) (b : Nat) : Bool :=
  match s.runOf x with
  | none => false
  | some r => x.occ = .running && r.place = 2 && !r.cores && x.vec.session.isNone && !x.lease.stable && x.links = []
      && x.qs.cq0 = [] && x.qs.cq1 = [] && x.qs.xq = [] && x.wait.deadline.isNone && x.wait.cancel.isNone && !x.wait.preempt && x.lease.draining.isNone
      && (x.lease.state ≠ .held || x.lease.susp.isNone) && x.lease.state ≠ .suspended && s.moveRoom x b
      && s.engines.reserved.any fun v => v.die = x.id.die && v.since + Config.agePeriod ≤ s.cycle && x.wait.stays ≠ some v.since
        && (match s.engines.ready.find? v.is, s.attachedAt v.graph with
          | some q, some a =>
            (s.gread a (nodeOff v.node 7) 1 % 4 ≤ 1 || s.gread a (nodeOff v.node 6) 1 / 4 % 2 = 1)
              && s.nodePri x ≤ q.effPri s.cycle
          | _, _ => false)

/-- Does a hart go before another in R100: the slot of lowest TWEIGHT.W, then the lower HIX? -/
def State.movesBefore (s : State) (x y : Hart) : Bool :=
  let w (x : Hart) : Nat := Table.get 1 s.engines.weight x.base.key.toNat
  w x < w y || (w x = w y && x.place.hix.toNat < y.place.hix.toNat)

/-- HART_MOVE (R100, R101): at a strip boundary the hart moves; else it is to move at the next one. Of the harts of the die that may move, and
none of which is on its way to a boundary, it is the first of R100's order. -/
def execHartMove (h : HartId) (die : Nat) (s : State) : Out :=
  let s := s.focus h
  let x := s.cur
  if !s.movable x die then .next s
  else if s.others.any fun y => y.id.die = h.die && (y.wait.move.isSome || (s.movable y die && s.movesBefore y x)) then .next s
  else if x.atBoundary then
    match s.pickSlot (s.moveSlots x die) with
    | some (b, s) => .next (s.moveTo b true)
    | none => .next s
  else .next (s.onCur fun x => if x.wait.move.isSome then x else { x with wait := { x.wait with move := some (die, s.cycle) } })

/-- The hart that was to move stands at a strip boundary: it moves, or stays where it is if R100 no longer lets it (R101). -/
def moveLands (h : HartId) (s : State) : Out :=
  let s := s.focus h
  match s.cur.wait.move with
  | none => .next s
  | some (die, _) =>
    if !s.cur.atBoundary then .next s
    else match (if s.movable s.cur die then s.pickSlot (s.moveSlots s.cur die) else none) with
      | some (b, s) => .next (s.moveTo b true)
      | none => .next (s.onCur fun x => { x with wait := { x.wait with move := none } })

/-- The begin of the reservation for which a hart was to move (R100). -/
def State.reservedSince (s : State) (d : Nat) : Option Nat := (s.engines.reserved.find? fun v => v.die = d).map (·.since)

/-- MOVE_TIMEOUT (R101): no strip boundary has come in time; the hart stays where it is for this reservation, and the engine picks another. -/
def execMoveTimeout (h : HartId) (s : State) : Out :=
  let s := s.focus h
  match s.cur.wait.move with
  | some (_, t) =>
    if t + 2048 ≤ s.cycle ∧ !s.cur.atBoundary then
      .next (s.onCur fun x => { x with wait := { x.wait with move := none, stays := s.reservedSince h.die } })
    else .next s
  | none => .next s

/-- The engines pick a hart of a die to move away for the node that reserves it (R100, R101): the first of R100's order, to the first die
that can take it. -/
def pickMove (die : Nat) (s : State) : Out :=
  let could := (s.harts.filter fun x => x.id.die = die).filterMap fun x => ((List.range 4).find? (s.movable x)).map fun b => (x, b)
  match could.find? fun p => could.all fun q => !s.movesBefore q.1 p.1 with
  | some (x, b) => execHartMove x.id b s
  | none => .next s

/-! ### Pods (R23, R25) -/

/-- PODRETIRE (R25, R26): cause 4. -/
def execPodretire (die pod : Nat) (s : State) : Out := .next (s.retirePod die (pod % 256) 4)

/-- EOL_WRITE (R23). -/
def execEolWrite (die pod : Nat) (v : BitVec 16) (s : State) : Out := .next (s.writeEol die (pod % 256) v)

/-- HMARGIN_WRITE (R23). -/
def execHmarginWrite (die : Nat) (v : BitVec 16) (s : State) : Out := .next (s.writeHmargin die v)

end Sys2Proof.Machine
end

