-- ==== Sys2Proof/Machine/GraphEvents.lean ====
section
/-! DEFINITION. The graph engines at work (R80-R116): attaching, tokens, dispatch and placement, reservations, folded gangs,
launches across dies, cancellation walks. -/

namespace Sys2Proof.Machine

/-! ### Attach, detach, tokens -/

/-- GATTACH (R85), by the hart in focus. -/
def execGattach (addr : BitVec 56) (s : State) : Out := engineEvent s s.cur.id.die (s.attach addr)

/-- GDETACH (R86), by the hart in focus. -/
def execGdetach (addr : BitVec 56) (s : State) : Out := engineEvent s s.cur.id.die (s.detach addr)

/-- TOKEN_STEP (R80-R82): the first tokens on their way to the engine of a die arrive. -/
def execTokenStep (die : Nat) (s : State) : Out :=
  match s.engines.tokens.find? fun t => t.die = die with
  | none => .next s
  | some t => engineEvent s die ((s.onEngines fun e => { e with tokens := e.tokens.erase t }).tokenStep die t.addr t.n)

/-! ### Places (R94-R96) -/

/-- What a node asks of its placement: the record's fields (R75), the ready entry, the home die. -/
structure Gang where
  place : Nat
  cores : Bool
  gsize : Nat
  req : Request
  home : Nat
  pri : Nat
  own : Ready

/-- The lease request of a node (R97). -/
def State.nodeRequest (s : State) (a : Attached) (i : Nat) : Request :=
  let f := s.nfield a i
  ⟨f 38 1, f 39 1, f 40 1, f 41 1, f 42 1 = 1⟩

/-- The gang of a node (R75, R95): without d2d, ANY and SPREAD behave as DIE. -/
def State.gangFor (s : State) (a : Attached) (r : Ready) : Gang :=
  let i := r.node
  let p := s.nfield a i 7 1 % 4
  { place := if p ≥ 2 ∧ !s.d2d then 1 else p, cores := s.nfield a i 6 1 / 4 % 2 = 1, gsize := s.nfield a i 32 4
    req := s.nodeRequest a i, home := a.home, pri := r.effPri s.cycle, own := r }

/-- The dies in the order of R95. -/
def dieOrder (home : Nat) : List Nat := home :: (List.range 4).filter (· ≠ home)

/-- The largest CORES gang that a placement holds (R95). -/
def largestGang (place : Nat) : Nat := match place with | 0 => 112 | 1 => 1792 | _ => 7168

/-- The first condition of R96: the cluster's live Pods allow the request. -/
def State.clusterHolds (s : State) (q : Request) (d c : Nat) : Bool := q.min = 0 || q.need ≤ (s.livePods d c).length

/-- Both conditions of R96. -/
def State.clusterTakes (s : State) (q : Request) (d c : Nat) : Bool :=
  s.clusterHolds q d c && (q.min = 0 || s.qsum d c + 256 * q.quota ≤ 4096)

/-- Can no cluster that the placement allows ever hold the lease (R96)? DEDUCED: a node placed SPREAD needs such a cluster on each die of
`h mod 4`, and faults where one of these dies has none (log 33). -/
def State.neverHolds (s : State) (g : Gang) : Bool :=
  let never (d : Nat) : Bool := (List.range 16).all fun c => !s.clusterHolds g.req d c
  if g.place = 3 then (List.range (min 4 g.gsize)).any never else (List.range 4).all never

/-- The places that a cluster offers a gang: its free program slots, in an order of the engine's own (log 24). -/
def State.offers (s : State) (g : Gang) (d c : Nat) : List HartId :=
  if s.clusterTakes g.req d c then
    let slots := s.openSlots d c g.pri (·.is g.own)
    slots.rotateLeft (Config.freeNat (s.free + 16 * d + c) % max 1 slots.length)
  else []

/-- The places of a die. -/
def State.dieOffers (s : State) (g : Gang) (d : Nat) : List HartId := (List.range 16).flatMap fun c => s.offers g d c

/-- The dies over which a gang may spread: each with places, pairwise joined, joined to the home die (R31, R43). -/
def State.spreadDies (s : State) (g : Gang) : List Nat :=
  (dieOrder g.home).foldl (init := []) fun ds d =>
    if s.dieOffers g d ≠ [] ∧ s.joined g.home d ∧ ds.all (s.joined d) then ds ++ [d] else ds

/-- Give harts places in increasing HIX, as far as they go. -/
def takePlaces : List Nat → List HartId → List (Nat × HartId)
  | [], _ => []
  | _, [] => []
  | h :: hs, p :: ps => (h, p) :: takePlaces hs ps

/-- SPREAD: hart `h` goes to die `h mod 4` (R95). -/
def takeSpread (room : Nat → List HartId) : List Nat → List HartId → List (Nat × HartId)
  | [], _ => []
  | h :: hs, used => match (room (h % 4)).find? fun p => !used.contains p with
    | some p => (h, p) :: takeSpread room hs (p :: used)
    | none => []

/-- The places for some harts of a gang, or of its rest (R95, R98): the first candidate that holds all of a CORES gang, or
one hart of another; on dies whose sideband to the home die is up (R31). -/
def State.placesFor (s : State) (g : Gang) (hs : List Nat) : List (Nat × HartId) :=
  let enough (ps : List HartId) : Bool := if g.cores then hs.length ≤ ps.length else !ps.isEmpty
  let first (cands : List (List HartId)) : List (Nat × HartId) := takePlaces hs ((cands.find? enough).getD [])
  let near := (dieOrder g.home).filter (s.joined g.home)
  match g.place with
  | 0 => first (near.flatMap fun d => (List.range 16).map fun c => s.offers g d c)
  | 1 => first (near.map (s.dieOffers g))
  | 2 => first [(s.spreadDies g).flatMap (s.dieOffers g)]
  | _ =>
    let ok := s.spreadDies g
    let room (d : Nat) : List HartId := if ok.contains d then s.dieOffers g d else []
    let xs := takeSpread room hs []
    if g.cores ∧ xs.length < hs.length then [] else xs

/-- The hart places of a gang that its own package does not hold: those here, and a package for the rest. R41 speaks of gangs on more than
one package and R95 places none there; here an engine may put the rest of a CORES gang placed ANY on another package, which one and whether
is its own choice (log 33). -/
def State.farPlaces (s : State) (g : Gang) (hs : List Nat) : Option (List (Nat × HartId) × Nat × List Nat) :=
  let ps := takePlaces hs ((s.spreadDies g).flatMap (s.dieOffers g))
  let p := Config.freeNat s.free
  if g.place = 2 ∧ g.cores ∧ ps ≠ [] ∧ s.livePlanes ≠ [] ∧ p < 4096 ∧ p ≠ s.pkgid.toNat then some (ps, p, hs.drop ps.length) else none

/-- Must the start of harts wait, for their context areas are zeroed (R361, R32, R36)? -/
def State.startHeld (s : State) (ps : List (Nat × HartId)) : Bool := ps.any fun p => s.hardwareHeld p.2.die (contextLoc p.2) 128

/-! ### Starting harts (R97, R98) -/

/-- A hart in its start state (R97, R121, R148). -/
def Hart.started (x : Hart) (r : Run) (hix uid : Nat) (feat : BitVec 6) (index : Nat) : Hart :=
  let y := x.cleared
  let y := { y with
    uid := uid, occ := .running
    base := { y.base with pc := r.entry, level := if r.slot = 0 then .supervisor else .user, key := r.slot, ptroot := r.ptroot, feat := feat }
    place := ⟨BitVec.ofNat 13 hix, BitVec.ofNat 13 r.gsize, BitVec.ofNat 16 index, r.graph, some r.id⟩
    lease := { y.lease with pri := r.prio } }
  y.setGr 1 r.args

/-- Hart `hix` of a run starts in a slot (R97): its lease request enters. -/
def State.beginHart (s : State) (r : Run) (hix : Nat) (h : HartId) : State :=
  let feat := Config.devFeat &&& ~~~s.port.featmask
  let y := (s.hart h).started r hix s.nextUid feat r.node
  let y := { y with lease := { y.lease with clu := h.clu } }
  let y := if r.req.min = 0 then y else s.leaseRequest y r.req
  let s := { (s.onHart h (fun _ => y)).zeroFrames h with nextUid := s.nextUid + 1 }
  s.onRun r.id fun r => { r with toStart := r.toStart.erase hix, live := r.live ++ [y.uid] }

/-- HLAUNCH counts `n` harts more (R75). -/
def State.countLaunched (s : State) (a : Attached) (r : Run) (n : Nat) : State :=
  s.gwrite a (nodeOff r.node 88) 4 (s.gread a (nodeOff r.node 88) 4 + n)

/-- Start hart `hix` of a run in a slot (R97): HLAUNCH counts it. -/
def State.startHart (s : State) (a : Attached) (r : Run) (hix : Nat) (h : HartId) : State := (s.beginHart r hix h).countLaunched a r 1

/-- Start several harts of a run. -/
def State.startHarts (s : State) (a : Attached) (r : Run) (ps : List (Nat × HartId)) : State :=
  ps.foldl (init := s) fun s p => s.startHart a r p.1 p.2

/-! ### The done-hart mask (R98, R106) -/

/-- Clear the mask, word by word; a refused write is dropped (log 20). -/
def clearMask (s : State) (a : Attached) (va : Nat) : Nat → Res Unit
  | 0 => .ok () s
  | n + 1 => match writeMem s a.cx (BitVec.ofNat 64 va) 8 0 .plain with
    | .stall w s => .stall w s
    | .trap _ _ s => clearMask s a (va + 8) n
    | .ok _ s => clearMask s a (va + 8) n

/-- The HIX whose bits are clear among those of `n` words; a word that cannot be read has none set (log 20). -/
def clearBits (s : State) (a : Attached) (va first gsize : Nat) : Nat → Res (List Nat)
  | 0 => .ok [] s
  | n + 1 =>
    let mine (m : Nat) : List Nat := (List.range 64).filterMap fun i => if first + i < gsize ∧ !m.testBit i then some (first + i) else none
    match readMem s a.cx (BitVec.ofNat 64 va) 8 .plain with
    | .stall w s => .stall w s
    | .trap _ _ s => (clearBits s a (va + 8) (first + 64) gsize n).bind fun hs s => .ok (mine 0 ++ hs) s
    | .ok m s => (clearBits s a (va + 8) (first + 64) gsize n).bind fun hs s => .ok (mine m ++ hs) s

/-- Does a dispatch of the node keep the mask: a retry with INDEP (R106)? -/
def State.keepsMask (s : State) (a : Attached) (i : Nat) : Bool :=
  s.gread a (nodeOff i 6) 1 / 2 % 2 = 1 && s.gread a (nodeOff i 37) 1 ≠ 0

/-- Which harts a dispatch starts (R98, R106): the retry of an INDEP node those whose bits are clear, any other run all. -/
def State.hartsToStart (s : State) (a : Attached) (i gsize : Nat) : Res (List Nat) :=
  if s.keepsMask a i then clearBits s a (s.gread a (nodeOff i 64) 8) 0 gsize ((gsize + 63) / 64) else .ok (List.range gsize) s

/-- The mask and HDONE are cleared before the first hart starts (R98, R106). -/
def State.resetMask (s : State) (a : Attached) (i gsize : Nat) : Res Unit :=
  if s.keepsMask a i then .ok () s
  else (clearMask s a (s.gread a (nodeOff i 64) 8) ((gsize + 63) / 64)).bind fun _ s => .ok () (s.gwrite a (nodeOff i 92) 4 0)

/-- The output ranges of a node from number `k` on: base and length (R78); one that cannot be read is left out (log 20). -/
def outputRanges (s : State) (a : Attached) (base k : Nat) : Nat → Res (List (Nat × Nat))
  | 0 => .ok [] s
  | n + 1 =>
    let word (o : Nat) (s : State) : Res (Option Nat) := match readMem s a.cx (BitVec.ofNat 64 (base + 16 * k + o)) 8 .plain with
      | .ok v s => .ok (some v) s
      | .trap _ _ s => .ok none s
      | .stall w s => .stall w s
    (word 0 s).bind fun b s => (word 8 s).bind fun l s => (outputRanges s a base (k + 1) n).bind fun rs s =>
      .ok (match b, l with | some b, some l => (b, l) :: rs | _, _ => rs) s

/-- The output ranges of a node (R78). -/
def State.outputs (s : State) (a : Attached) (i : Nat) : Res (List (Nat × Nat)) :=
  outputRanges s a (s.gread a (nodeOff i 56) 8) 0 (s.gread a (nodeOff i 46) 2)

/-! ### Dispatch (R92-R98) -/

/-- Is an entry a node that its engine may dispatch: READY (R89), no walk under way (R113)? -/
def State.dispatchable (s : State) (die : Nat) (r : Ready) : Bool :=
  r.home = die && r.parked.isNone && (match s.attachedAt r.graph with
    | some a => s.gread a 47 1 < 128 && s.nodeState a r.node = 2
    | none => false)

/-- The key slot whose turn it is, and its turns left after this one (R93): the slot that has turns left, else the next slot with
a ready node and a weight. A slot whose weight has become 0 has no turn left (R84). -/
def turnOf (slots : List Nat) (weight : Nat → Nat) (cur : Nat × Nat) : Option (Nat × Nat) :=
  if cur.2 > 0 ∧ slots.contains cur.1 ∧ weight cur.1 ≠ 0 then some (cur.1, cur.2 - 1)
  else
    let order := (List.range 256).map fun k => (cur.1 + 1 + k) % 256
    (order.find? fun k => slots.contains k ∧ weight k ≠ 0).map fun k => (k, weight k - 1)

/-- The slot before the first, where a die's round begins. -/
def firstTurn : Nat × Nat := (255, 0)

/-- The run of a dispatched node (R89, R97). -/
def State.newRun (s : State) (a : Attached) (r : Ready) (g : Gang) (hs : List Nat) (anchor : Nat × Nat) (launch : Bool)
    (outs : List (Nat × Nat)) : Run :=
  let f := s.nfield a r.node
  { id := s.engines.nextRun, home := a.home, graph := a.header, node := r.node, gen := BitVec.ofNat 16 (s.gen a), slot := a.slot
    ptroot := a.ptroot, state := if launch then .placing else .running, cores := g.cores, place := g.place, prio := f 3 1 % 8
    gsize := g.gsize, entry := BitVec.ofNat 64 (f 16 8), args := BitVec.ofNat 64 (f 24 8), req := g.req, entered := r.entered, toStart := hs
    live := [], failure := none, nfailh := 0, bars := Vector.replicate 8 ⟨[], [], 0⟩, anchor := anchor, launch := launch
    committed := [], held := [], outputs := outs, failedAt := 0, far := [], origin := none }

/-- The entry leaves the ready queues and gives up its reservations. -/
def State.leaveReady (s : State) (r : Ready) : State :=
  s.onEngines fun e => { e with ready := e.ready.erase r, reserved := e.reserved.filter fun v => !v.is r }

/-- The participating engine of another package in a launch: its plan counts the packages on from the dies (R41). -/
def farEngine (pkg : Nat) : Nat := 4 + pkg

/-- A node is placed: on one die its harts start and it runs; over several dies, or with the harts `far` on another package, it is launched
(R41, R89). -/
def State.placeNode (s : State) (a : Attached) (r : Ready) (g : Gang) (hs : List Nat) (ps : List (Nat × HartId)) (outs : List (Nat × Nat))
    (far : Option (Nat × List Nat)) : State :=
  let dies := (ps.map (·.2.die)).eraseDups
  let anchor := match ps with | p :: _ => (p.2.die, p.2.clu) | [] => (a.home, 0)
  let launch : Bool := dies.length > 1 || far.isSome
  let run := s.newRun a r g hs anchor launch outs
  let s := (s.leaveReady r).onEngines fun e => { e with runs := e.runs ++ [run], nextRun := e.nextRun + 1 }
  let s := { s with free := s.free + 64 }
  let s := s.gwrite a (nodeOff r.node 88) 4 0
  if launch then
    let plan := (dies.map fun d => (d, (ps.filter fun p => p.2.die = d).map (·.1))) ++ far.toList.map fun f => (farEngine f.1, f.2)
    let l : Launch := ⟨run.id, plan, plan.map (·.1), [], [], [], [], [], s.cycle + (s.die a.home).launchto.toNat * 2400⟩
    (s.setNode a r.node 3).onEngines fun e => { e with launches := e.launches ++ [l] }
  else (s.startHarts a run ps).setNode a r.node 4

/-- The entry returns to the head of its queue (R94). -/
def State.returnsReady (s : State) (r : Ready) : State :=
  s.onEngines fun e => { e with ready := e.ready.map fun x => if x = r then { x with tried := true } else x }

/-- A node is dispatched (R89, R94-R96, R102): it faults, or is placed, or returns to its queue. One whose mask has every bit set is
DONE (R99). -/
def State.dispatch (s : State) (a : Attached) (r : Ready) : Res Unit :=
  let s := s.gaudit a (nodeOff r.node 0) 96
  if s.graphLocked a then .stall .home s
  else if !s.nodeOk a r.node (s.gread a (nodeOff r.node 43) 1) then (s.leaveReady r).failPlacing a r.node 7 0
  else
    let g := s.gangFor a r
    if g.cores ∧ g.gsize > largestGang g.place then (s.leaveReady r).failPlacing a r.node 8 0
    else if g.req.min ≠ 0 ∧ s.neverHolds g then (s.leaveReady r).failPlacing a r.node 6 0x0F
    else (s.hartsToStart a r.node g.gsize).bind fun hs s =>
      if hs = [] then (s.leaveReady r).nodeEnds a r.node 5
      else match s.placesFor g hs with
        | [] => match s.farPlaces g hs with
          | none => .ok () (s.returnsReady r)
          | some (ps, pkg, rest) => (s.resetMask a r.node g.gsize).bind fun _ s => (s.outputs a r.node).bind fun outs s =>
            .ok () (s.placeNode a r g hs ps outs (some (pkg, rest)))
        | ps => if s.startHeld ps then .stall .home s
          else (s.resetMask a r.node g.gsize).bind fun _ s => (s.outputs a r.node).bind fun outs s =>
            .ok () (s.placeNode a r g hs ps outs none)

/-- NODE_DISPATCH (R93): one turn of the home engine of a die. -/
def execNodeDispatch (die : Nat) (s : State) : Out :=
  let ready := s.engines.ready.filter (s.dispatchable die)
  match turnOf (ready.map (·.slot.toNat)) (Table.get 1 s.engines.weight) (Table.get firstTurn s.engines.turnSlot die) with
  | none => .next s
  | some (k, left) =>
    match firstReady s.cycle (ready.filter fun r => r.slot.toNat = k) with
    | none => .next s
    | some r => match s.attachedAt r.graph with
      | none => .next s
      | some a =>
        engineEvent s die ((s.onEngines fun e => { e with turnSlot := Table.set firstTurn e.turnSlot die (k, left) }).dispatch a r)

/-! ### Reservations (R94) -/

/-- The dies that an entry's placement allows. -/
def State.allowedDies (s : State) (r : Ready) : List Nat :=
  match r.parked with
  | some u => (s.engines.parked.filter fun x => x.uid = u).map fun x => x.id.die
  | none => match s.attachedAt r.graph with
    | some a => if (s.gangFor a r).place = 3 then List.range (min 4 (s.gangFor a r).gsize) else List.range 4
    | none => []

/-- RESERVATION (R94): the first entry of the die that was dispatched in vain and has waited 64 µs reserves the dies it
may use and that no other reserves. -/
def execReservation (die : Nat) (s : State) : Out :=
  let due (r : Ready) : Bool := r.home = die && ((r.tried && s.dispatchable die r) || r.parked.isSome) && r.entered + Config.agePeriod ≤ s.cycle
    && (s.allowedDies r).any fun d => s.engines.reserved.all fun v => v.die ≠ d
  match firstReady s.cycle ((s.engines.ready.filter due).map fun r => { r with prio := 7 }) with
  | none => .next s
  | some r =>
    let free := (s.allowedDies r).filter fun d => s.engines.reserved.all fun v => v.die ≠ d
    .next (s.onEngines fun e => { e with reserved := e.reserved ++ free.map fun d =>
      ⟨d, r.graph, r.node, r.parked, s.cycle, s.dieFreePods d, (List.range 16).flatMap (s.freeSlots d)⟩ })

/-! ### Folded gangs (R98) -/

/-- The entry under which the rest of a folded gang takes places. -/
def Run.asReady (r : Run) : Ready := ⟨r.home, r.graph, r.node, r.slot, r.prio, r.entered, none, false⟩

/-- The rest of a running folded gang as a gang. -/
def State.restOf (s : State) (r : Run) : Gang :=
  { place := r.place, cores := false, gsize := r.gsize, req := r.req, home := r.home, pri := r.asReady.effPri s.cycle, own := r.asReady }

/-- The places for the next hart of a folded gang: CLUSTER and DIE stay where the gang began (R95, R98). -/
def State.nextPlace (s : State) (r : Run) (hix : Nat) : List HartId :=
  let g := s.restOf r
  let ok (d : Nat) : Bool := s.joined r.home d && (s.runDies r.id s.nextUid).all (s.joined d)
  match r.place with
  | 0 => if ok r.anchor.1 then s.offers g r.anchor.1 r.anchor.2 else []
  | 1 => if ok r.anchor.1 then s.dieOffers g r.anchor.1 else []
  | 2 => ((dieOrder r.home).filter ok).flatMap (s.dieOffers g)
  | _ => if ok (hix % 4) then s.dieOffers g (hix % 4) else []

/-- FOLDED_HART_START (R98): the first run of the die with harts to start and a place for the next one starts it. -/
def execFoldedHartStart (die : Nat) (s : State) : Out :=
  let can (r : Run) : Bool := r.home = die && r.state = .running && !r.cores && r.failure.isNone
    && (!r.launch || r.committed.length = 4) && !(s.attachedAt r.graph).any s.graphLocked && (match r.toStart with | h :: _ => !(s.nextPlace r h).isEmpty | [] => false)
  match s.engines.runs.find? can with
  | none => .next s
  | some r => match s.attachedAt r.graph, r.toStart with
    | some a, h :: _ => (match s.nextPlace r h with
      | p :: _ => if s.startHeld [(h, p)] then .next s else .next ({ s with free := s.free + 64 }.startHart a r h p)
      | [] => .next s)
    | _, _ => .next s

/-! ### Launches across dies (R41, R42) -/

/-- The launch of a run. -/
def State.launchOf (s : State) (run : Nat) : Option Launch := s.engines.launches.find? fun l => l.run = run

/-- Change a launch; one with nothing left to do is forgotten. -/
def State.onLaunch (s : State) (run : Nat) (f : Launch → Launch) : State :=
  s.onEngines fun e => { e with launches := (e.launches.map fun l => if l.run = run then f l else l).filter fun l =>
    !(l.prepare = [] && l.acks = [] && l.nacks = [] && l.prepared = [] && l.commits = [] && l.aborts = []) }

/-- The run of a launch. -/
def State.runById (s : State) (run : Nat) : Option Run := s.engines.runs.find? fun r => r.id = run

/-- PREPARE for another package (R41): what its engine needs to start the harts. -/
def Run.prepareWord (r : Run) (hs : List Nat) : GangWord :=
  .prepare r.id r.graph (BitVec.ofNat 16 r.node) r.gen r.slot r.ptroot r.cores (BitVec.ofNat 3 r.prio) r.gsize r.entry r.args
    (BitVec.ofNat 32 r.req.word) hs

/-- The home engine gives up a launch (R42): nothing more is prepared, ABORT goes to each die that was asked. -/
def Launch.giveUp (l : Launch) : Launch :=
  { l with prepare := [], prepared := [], acks := [], nacks := [], commits := []
           aborts := (l.plan.map (·.1)).filter fun d => !l.prepare.contains d }

/-- A run without harts ends at once. -/
def State.settleRun (s : State) (run : Nat) : Res Unit :=
  match s.runById run with
  | some r => if r.over ∧ (s.launchOf run).isNone then s.endRun r else .ok () s
  | none => .ok () s

/-- A launch fails without commit (R42): its run ends as aborted, and the node goes on by `next`. A stale one leaves its node
READY in its own generation (R87). -/
def State.failLaunch (s : State) (run : Nat) (next : Attached → Run → State → Res Unit) : Res Unit :=
  match s.runById run with
  | none => .ok () s
  | some r =>
    let gone (st : RunState) (s : State) : State :=
      (s.onRun run fun r => { r with state := st, toStart := [], held := [], far := [] }).onLaunch run Launch.giveUp
    match s.attachedAt r.graph with
    | none => (gone .aborted s).settleRun run
    | some a =>
      if s.graphLocked a then .stall .home s
      else if r.gen.toNat ≠ s.gen a then
        (gone .running (if s.gread a (nodeOff r.node 4) 2 ≠ s.gen a then s.setNode a r.node 2 else s)).settleRun run
      else (next a r (gone .aborted s)).bind fun _ s => s.settleRun run

/-- The node returns to READY with its queue age and counts no retry (R42, R93). -/
def nodeReturns (a : Attached) (r : Run) (s : State) : Res Unit :=
  .ok () ((s.setNode a r.node 2).pushReady a r.node r.entered)

/-- PREPARE (R41): the engine of a die takes places for its harts and starts them, or answers NACK; to another package it is sent. -/
def execPrepare (launch die : Nat) (s : State) : Out :=
  match s.launchOf launch, s.runById launch with
  | some l, some r =>
    if !l.prepare.contains die then .next s
    else match s.attachedAt r.graph with
      | none => .next s
      | some a =>
        if s.graphLocked a then .next s
        else
        let hs := match l.plan.find? fun p => p.1 = die with | some p => p.2 | none => []
        if 4 ≤ die then
          .next (((s.onRun launch fun r => { r with toStart := r.toStart.filter fun h => !hs.contains h, far := r.far ++ hs.map (die - 4, ·) }).sendGang
            r.home (die - 4) (r.prepareWord hs)).onLaunch launch fun l => { l with prepare := l.prepare.erase die })
        else
        let g := s.restOf r
        let ps := takePlaces hs (s.dieOffers g die)
        if s.startHeld ps then .next s
        else if ps.length = hs.length then
          let s := ({ s with free := s.free + 64 }.startHarts a r ps)
          .next (s.onLaunch launch fun l => { l with prepare := l.prepare.erase die, acks := l.acks ++ [die] })
        else .next (s.onLaunch launch fun l => { l with prepare := l.prepare.erase die, nacks := l.nacks ++ [die] })
  | _, _ => .next s

/-- The harts of a run that another package has started count in HLAUNCH with its ACK (R75, log 33). -/
def State.countFar (s : State) (r : Run) (die : Nat) : State :=
  match s.attachedAt r.graph with
  | some a => if 4 ≤ die then s.countLaunched a r (r.far.filter fun f => f.1 = die - 4).length else s
  | none => s

/-- ACK (R41, R42): the last one sends COMMIT and the node runs; one that comes at the timeout or later is ignored. -/
def execAck (launch die : Nat) (s : State) : Out :=
  match s.launchOf launch, s.runById launch with
  | some l, some r =>
    if !l.acks.contains die ∨ l.deadline ≤ s.cycle ∨ (s.attachedAt r.graph).any s.graphLocked then .next s
    else
      let dies := l.plan.map (·.1)
      let got := l.prepared ++ [die]
      let s := s.countFar r die
      if dies.all got.contains then
        let s := s.onLaunch launch fun l => { l with acks := l.acks.erase die, prepared := [], commits := dies }
        let s := s.onRun launch fun r => { r with state := if r.state = .placing then .running else r.state }
        match s.attachedAt r.graph with
        | some a => .next (if r.gen.toNat = s.gen a ∧ s.nodeState a r.node = 3 then s.setNode a r.node 4 else s)
        | none => .next s
      else .next (s.onLaunch launch fun l => { l with acks := l.acks.erase die, prepared := got })
  | _, _ => .next s

/-- NACK (R42); after the timeout it changes nothing more. -/
def execNack (launch die : Nat) (s : State) : Out :=
  match s.launchOf launch with
  | some l => if l.nacks.contains die ∧ s.cycle < l.deadline then engineEvent s die (s.failLaunch launch nodeReturns) else .next s
  | none => .next s

/-- LAUNCH_TIMEOUT (R42, R102): a retry is counted, or the node faults. -/
def execLaunchTimeout (launch : Nat) (s : State) : Out :=
  match s.launchOf launch, s.runById launch with
  | some l, some r =>
    if s.cycle < l.deadline ∨ l.commits ≠ [] ∨ l.aborts ≠ [] then .next s
    else engineEvent s r.home (s.failLaunch launch fun a r s =>
      let f : Failure := ⟨3, 0, 0, 0, 0, none, 0, none⟩
      if s.gread a (nodeOff r.node 37) 1 < s.gread a (nodeOff r.node 36) 1 then
        (s.recordFailure a r.node f 0 (some 2)).bind fun _ s => .ok () (s.pushReady a r.node r.entered)
      else s.recordFailure a r.node f 0 none)
  | _, _ => .next s

/-- Held TFAILs take effect, in the order of HIX; they occur at the commit (R41, R102, R116). -/
def failHeld (s : State) (run : Nat) : List (Nat × Failure) → Res Unit
  | [] => .ok () s
  | (u, f) :: fs => match s.runById run with
    | none => .ok () s
    | some r => (s.failRun r { f with time := none } u).bind fun _ s => failHeld s run fs

/-- Insert by HIX. -/
def insertHeld (x : Nat × Failure) : List (Nat × Failure) → List (Nat × Failure)
  | [] => [x]
  | y :: ys => if x.2.fhix ≤ y.2.fhix then x :: y :: ys else y :: insertHeld x ys

/-- COMMIT (R41): the harts of a die go on: barriers, TEXITs (HART_RETIRE) and TFAILs that waited for it; to another package it is sent. -/
def execCommit (launch die : Nat) (s : State) : Out :=
  match s.launchOf launch, s.runById launch with
  | some l, some r =>
    if !l.commits.contains die then .next s
    else
      let last : Bool := l.commits = [die]
      let mine (f : Nat × Failure) : Bool := f.2.loc.any fun h => h.die = die
      let s0 := s
      let s := s.onLaunch launch fun l => { l with commits := l.commits.erase die }
      let s := if 4 ≤ die then s.sendGang r.home (die - 4) (.commit launch) else s
      let s := s.onRun launch fun r => { r with committed := if last then [0, 1, 2, 3] else r.committed ++ [die]
                                                held := r.held.filter fun f => !mine f }
      engineEvent s0 r.home (failHeld s launch ((r.held.filter mine).foldr insertHeld []))
  | _, _ => .next s

/-- A prepared hart is cancelled (R42): a TEXIT or TFAIL that waited is discarded. -/
def Hart.aborts (x : Hart) (now : Nat) : Hart :=
  match x.occ with
  | .retiring _ => { x with occ := .cancelled }
  | _ => x.cancelArrives now

/-- ABORT (R42): the engine of a die cancels its prepared harts, those that have been pre-empted among them; to another package it is
sent. -/
def execAbort (launch die : Nat) (s : State) : Out :=
  match s.launchOf launch with
  | some l =>
    if !l.aborts.contains die then .next s
    else
      let s0 := s
      let s := s.onLaunch launch fun l => { l with aborts := l.aborts.erase die }
      let home := match s.runById launch with | some r => r.home | none => 0
      let s := if 4 ≤ die then s.sendGang home (die - 4) (.abort launch) else s
      let s := s.dropParked launch fun x => x.id.die = die
      let s := s.mapHarts fun x => if x.place.run = some launch ∧ x.id.die = die then x.aborts s.cycle else x
      engineEvent s0 die (s.settleRun launch)
  | none => .next s

/-! ### Cancellation walks (R110-R114) -/

/-- Has a walk given the node an outcome (R111)? -/
def State.reached (s : State) (a : Attached) (n : Nat) : Bool := 8 ≤ s.nodeState a n && s.nodeState a n ≤ 10

/-- Drop nodes already reached from the front of a queue (R111). -/
def State.unreached (s : State) (a : Attached) : List Nat → List Nat
  | [] => []
  | n :: ns => if s.reached a n then s.unreached a ns else n :: ns

/-- A node with harts, or to have them, is cancelled (R89, R108, R111). -/
def State.cancelNode (s : State) (a : Attached) (n : Nat) : Res Unit :=
  let s := s.setNode a n 8
  match s.engines.runs.find? fun r => r.graph = a.header && r.node = n && r.gen.toNat = s.gen a && r.state ≠ .aborted with
  | none => .ok () s
  | some r =>
    let before : Bool := r.state = .placing
    let s := (s.cancelRun r 0).onRun r.id fun r => { r with state := .cancelling, held := if before then [] else r.held, far := if before then [] else r.far }
    let s := if before then s.onLaunch r.id Launch.giveUp else s
    s.settleRun r.id

/-- Steps 2 to 4 of a visit (R111, R112), unless a counter that reached zero has brought them on (R90). -/
def State.visitMarks (s : State) (a : Attached) (w : Walk) (v : Visit) : Res Unit :=
  let n := v.node
  let st := s.nodeState a n
  let marked (queues : Bool) (s : State) : State := s.onVisit a.header fun v => { v with marked := true, queues := queues }
  if v.marked then .ok () s
  else if st ≤ 2 then .ok () (s.reach a w n)
  else if st = 3 ∨ st = 4 ∨ st = 7 then
    let s := s.gaudit a (nodeOff n 6) 1
    let opt : Bool := s.gread a (nodeOff n 6) 1 / 32 % 2 = 1
    ((s.markReached a n w.origin).cancelNode a n).bind fun _ s => .ok () (marked (!opt) s)
  else .ok () (marked false s)

/-- The nodes that a visit appends to a breadth-first walk (R110). -/
def State.appended (s : State) (a : Attached) (w : Walk) (n : Nat) (queues : Bool) : Res (List Nat) :=
  if w.all || !queues then .ok [] s
  else (s.successors a n).bind fun es s =>
    .ok ((es.filterMap fun e => e.map (·.1)).eraseDups.filter fun j => !w.seen.contains j) (s.countBad a (es.filter (· = none)).length)

/-- CURSOR's low 16 bits and bit 63 (R112 step 1). -/
def State.setCursor (s : State) (a : Attached) (n : Nat) : State :=
  let c := s.gread a 40 8
  s.gwrite a 40 8 (c / 65536 * 65536 % 2 ^ 63 + n % 65536 + 2 ^ 63)

/-- A walk is over: the next one begins, or CURSOR's bit 63 falls (R112). -/
def State.endWalk (s : State) (a : Attached) : State :=
  let s := s.onAttached a.header fun x => { x with walks := x.walks.drop 1 }
  match s.attachedAt a.header with
  | some x => if x.walks = [] then s.gwrite a 40 8 (s.gread a 40 8 % 2 ^ 63) else s
  | none => s

/-- The first walk of a graph. -/
def State.walkOf (s : State) (a : Attached) : Option Walk := (s.attachedAt a.header).bind fun x => x.walks.head?

/-- Step 1 of the next visit of a walk (R112): CURSOR. A walk with no node left to visit ends. -/
def State.visitBegins (s : State) (a : Attached) (w : Walk) : State :=
  match s.unreached a w.queue with
  | [] => s.endWalk a
  | n :: rest => (s.setCursor a n).onAttached a.header fun x => { x with walks := match x.walks with
    | y :: ys => { y with queue := rest, visit := some ⟨n, s.cycle, false, false, false, false⟩ } :: ys
    | [] => [] }

/-- Steps 2 to 5 of a visit (R112). -/
def State.visitActs (s : State) (a : Attached) (w : Walk) (v : Visit) : Res Unit :=
  (s.visitMarks a w v).bind fun _ s =>
    let skips : Bool := ((s.walkOf a).bind (·.visit)).any (·.skips)
    (if skips then s.successorTokens a v.node else .ok () s).bind fun _ s => .ok () (s.onVisit a.header fun v => { v with told := true })

/-- Step 6 of a visit (R112), its successors (R110), the end of the walk, and of the graph (R91). -/
def State.visitEnds (s : State) (a : Attached) (w : Walk) (v : Visit) : Res Unit :=
  (s.appended a w v.node v.queues).bind fun more s =>
    let c := s.gread a 40 8
    let s := s.gwrite a 44 4 (2 ^ 31 + (bitsOf c 62 32 + 1) % 2 ^ 31)
    let queue := s.unreached a (w.queue ++ more)
    let s := s.onAttached a.header fun x => { x with walks := match x.walks with
      | y :: ys => { y with queue := queue, seen := y.seen ++ more, visit := none } :: ys
      | [] => [] }
    (if queue = [] then s.endWalk a else s).graphDone a

/-- WALK_VISIT (R111, R112): the next move of the first walk of a graph: the begin of a visit, in a later cycle what it does to the node, then
its end. What it does to the node is the last event of its cycle: a completion there comes first (R90, R113), and a counter that reaches
zero while the visit is under way finds the cancellation done (R90, log 41). The first token step of a new generation ends the walk (R114). -/
def execWalkVisit (header : Nat) (s : State) : Out :=
  match s.attachedAt (BitVec.ofNat 56 header) with
  | none => .next s
  | some a => match a.walks with
    | [] => .next s
    | w :: _ =>
      if s.graphLocked a then .next s
      else match w.visit with
      | none => .next (s.visitBegins a w)
      | some v =>
        if v.told then engineEvent s a.home (s.visitEnds a w v)
        else if s.cycle ≤ v.since then .next s
        else match engineEvent s a.home (s.visitActs a w v) with
          | .next s => .next (s.pass 1)
          | r => r

/-! ### Gangs over packages (R41-R43) -/

/-- The run of another package's home engine `pkg` that it numbers `n`. -/
def State.guestRun (s : State) (pkg n : Nat) : Option Run := s.engines.runs.find? fun r => r.origin = some (pkg, n)

/-- The own run `n`, if package `pkg` holds hart `hix` of it. -/
def State.hostRun (s : State) (pkg n hix : Nat) : Option Run :=
  s.engines.runs.find? fun r => r.id = n && r.origin.isNone && r.far.contains (pkg, hix)

/-- PREPARE from another package (R41): die 0 of this one takes part; it starts the harts on its dies, or answers NACK. Their page tables
are at the same offset in this package (log 33). -/
def State.guestPrepare (s : State) (pkg : Nat) (r : Run) (n : Nat) : Res Unit :=
  let g := s.restOf r
  let ps := takePlaces r.toStart ((s.spreadDies g).flatMap (s.dieOffers g))
  if ps.length ≠ r.toStart.length ∨ !s.store.keyLoaded r.slot.toNat then .ok () (s.sendGang 0 pkg (.nack n))
  else if s.startHeld ps then .stall .home s
  else
    let s := s.onEngines fun e => { e with runs := e.runs ++ [r], nextRun := e.nextRun + 1 }
    let s := ps.foldl (init := { s with free := s.free + 64 }) fun (s : State) p => s.beginHart r p.1 p.2
    .ok () (s.sendGang 0 pkg (.ack n))

/-- The harts of a gang whose launch has failed without commit are cancelled (R42). -/
def State.abortHarts (s : State) (run : Nat) : Res Unit :=
  let s := (s.dropParked run fun _ => true).mapHarts fun x => if x.place.run = some run then x.aborts s.cycle else x
  (s.onRun run fun r => { r with state := .aborted, held := [] }).settleRun run

/-- A committed node loses a link or a package (R43, R102, R105): no hart has failed. -/
def State.disturb (s : State) (r : Run) (lost : Nat) : Res Unit :=
  match s.attachedAt r.graph with
  | none => .ok () (s.tellHome r fun n => .lost n lost)
  | some a =>
    if !s.runCounts a r || r.failure.isSome then .ok () s
    else
      let flags := s.gread a (nodeOff r.node 6) 1
      let retry : Bool := s.nodeState a r.node = 4 ∧ flags % 4 = 3 ∧ s.gread a (nodeOff r.node 37) 1 < s.gread a (nodeOff r.node 36) 1
      let f : Failure := ⟨4, 0, 0, 0, 0, none, lost, none⟩
      let s := s.cancelRun r 0
      (s.recordFailure a r.node f 0 (if retry then some 7 else none)).bind fun _ s =>
        (.ok () (s.onRun r.id fun r => { r with failure := some f, nfailh := 0, state := if retry then .retrying else r.state }))

/-- A run loses a link between two of its dies, or a package (R42, R43): a launch without commit fails, unless its time is over, and a
committed node is disturbed. -/
def State.runLoses (s : State) (r : Run) (lost : Nat) : Res Unit :=
  match s.launchOf r.id with
  | some l =>
    if l.commits = [] ∧ l.aborts = [] then (if s.cycle < l.deadline then s.failLaunch r.id nodeReturns else .ok () s)
    else s.disturb r lost
  | none => s.disturb r lost

/-- A package cannot be reached any more (R38): what that does to the gangs with harts there (R42, R43). Nothing more is heard of those harts. -/
def runsLose (s : State) (pkg : Nat) : List Nat → Res Unit
  | [] => .ok () s
  | i :: is =>
    let r : Res Unit := match s.runById i with
      | none => .ok () s
      | some r =>
        let there : Bool := (r.far.any fun f => f.1 = pkg) || (s.launchOf i).any fun l => (l.plan.map (·.1)).contains (farEngine pkg)
        if !there then .ok () s
        else (s.runLoses r (0x8000 + pkg)).bind fun _ s =>
          ((s.onRun i fun r => { r with far := r.far.filter fun f => f.1 ≠ pkg }).onLaunch i fun l =>
            { l with commits := l.commits.erase (farEngine pkg), aborts := l.aborts.erase (farEngine pkg) }).settleRun i
    r.bind fun _ s => runsLose s pkg is

/-- A package cannot be reached any more. -/
def State.packageLost (s : State) (pkg : Nat) : Res Unit := runsLose s pkg (s.engines.runs.map (·.id))

/-- What a gang engine is told by that of package `pkg` (R41 to R43, R402). What it does not know of changes nothing. -/
def State.takeGang (s : State) (pkg : Nat) (w : GangWord) : Res Unit :=
  let guest (n : Nat) (f : Run → Res Unit) : Res Unit := match s.guestRun pkg n with | some r => f r | none => .ok () s
  let host (n hix : Nat) (f : Run → Res Unit) : Res Unit := match s.hostRun pkg n hix with | some r => f r | none => .ok () s
  let launch (n : Nat) (f : Launch → Launch) : Res Unit :=
    .ok () (if (s.launchOf n).any fun l => (l.plan.map (·.1)).contains (farEngine pkg) then s.onLaunch n f else s)
  match w with
  | .prepare n graph node gen slot ptroot cores prio gsize entry args request harts =>
    s.guestPrepare pkg
      { id := s.engines.nextRun, home := 0, graph := graph, node := node.toNat, gen := gen, slot := slot
        ptroot := BitVec.ofNat 56 (s.pkgid.toNat * 2 ^ 44 + ptroot.toNat % 2 ^ 44), state := .running, cores := cores, place := 2, prio := prio.toNat
        gsize := gsize, entry := entry, args := args, req := (Request.ofWord request.toNat).getD ⟨0, 0, 0, 0, false⟩, entered := s.cycle
        toStart := harts, live := [], failure := none, nfailh := 0, bars := Vector.replicate 8 ⟨[], [], 0⟩, anchor := (0, 0), launch := true
        committed := [], held := [], outputs := [], failedAt := 0, far := [], origin := some (pkg, n) } n
  | .ack n => launch n fun l => { l with acks := l.acks ++ [farEngine pkg] }
  | .nack n => launch n fun l => { l with nacks := l.nacks ++ [farEngine pkg] }
  | .commit n => guest n fun r =>
    failHeld (s.onRun r.id fun r => { r with committed := [0, 1, 2, 3], held := [] }) r.id (r.held.foldr insertHeld [])
  | .abort n => guest n fun r => s.abortHarts r.id
  | .cancel n => guest n fun r => (s.cancelRun r 0).settleRun r.id
  | .done n hix epc place => host n hix fun r => s.countDone r hix epc (slotAt place.toNat) 0 true
  | .failed n hix reason code epc tval place time => host n hix fun r =>
    s.failRun r ⟨reason, code, hix, epc, tval, some (slotAt place.toNat), 0, time⟩ 0
  | .gone n hix => host n hix fun r => (s.onRun n fun r => { r with far := r.far.erase (pkg, hix) }).settleRun r.id
  | .arrive n hix bar => host n hix fun r => .ok () (s.arriveAt r bar hix)
  | .left n hix bar => host n hix fun r => .ok () (s.leaveBar r bar hix)
  | .released n bar v => guest n fun r => .ok () (s.onBar r bar { r.bar bar with r := v })
  | .lost n link => match s.engines.runs.find? fun r => r.id = n && r.origin.isNone && r.far.any fun f => f.1 = pkg with
    | some r => s.runLoses r link
    | none => .ok () s

end Sys2Proof.Machine
end

