-- ==== Sys2Proof/Machine/QueueEvents.lean ====
section
/-! DEFINITION. The work of the copy and fabric queues (R209, R210, R396, R397, R400). -/

namespace Sys2Proof.Machine

/-! ### CQ0, CQ1 (R396) -/

/-- The entries of CQ0 or CQ1. -/
def Queues.copies (q : Queues) (one : Bool) : List CopyEntry := if one then q.cq1 else q.cq0

/-- Set the entries of CQ0 or CQ1. -/
def Hart.setCopies (x : Hart) (one : Bool) (es : List CopyEntry) : Hart :=
  if one then { x with qs := { x.qs with cq1 := es } } else { x with qs := { x.qs with cq0 := es } }

/-- The first entry of a copy queue is done; an empty queue sets its bit (R396). -/
def Hart.popCopy (x : Hart) (one : Bool) (rest : List CopyEntry) : Hart :=
  let y := x.setCopies one rest
  if rest = [] then y.latch (queueBit (if one then 2 else 1)) else y

/-- COPY_ENTRY (R210, R396, R397): the first entry of CQ0 or CQ1 runs to its end, its fault, or its stall. -/
def execCopyEntry (h : HartId) (queue : Bool) (s : State) : Out :=
  let s := s.focus h
  let n := if queue then 2 else 1
  match s.cur.qs.copies queue with
  | [] => .next s
  | e :: es =>
    if !s.cur.qs.ready e.after then .next s
    else match e.run (s.cur.queueCx n e.seq e.level) e.n s with
      | (_, .ok _ s) => .next (s.onCur fun x => x.popCopy queue es)
      | (e', .stall _ s) => .next (s.onCur fun x => x.setCopies queue (e' :: es))
      | (e', .trap c _ s) => .next (s.onCur fun x => x.queueFails n c e'.done)

/-! ### Accesses at physical addresses (R39, R400) -/

/-- A byte or word at a package offset under a key slot (R58, R400). -/
def physSpot (key loc : Nat) : Spot := ⟨loc % 2 ^ 44, key, 3⟩

/-- The bytes that one access of a transfer takes: an aligned 8-byte word is atomic (R400). -/
def fabricChunk (a b left : Nat) : Nat := if a % 8 = 0 ∧ b % 8 = 0 ∧ 8 ≤ left then 8 else 1

/-- Do the bytes before `done` and those from there on share no aligned word of either side (R192, R400)? -/
def FabricEntry.whole (e : FabricEntry) : Bool := (e.remote.toNat + e.done) % 8 = 0 && (e.here + BitVec.ofNat 64 e.done).toNat % 8 = 0

/-- Perform a transfer by `step` from byte `done` up to `limit`: `step` takes some bytes and says how many. One that waits goes back
to where no word is half done, `mark` (R192). -/
def FabricEntry.runFrom (e : FabricEntry) (cx : Ctx) (limit : Nat) (step : FabricEntry → State → Nat × Res Unit)
    (mark : FabricEntry × State) : Nat → State → FabricEntry × Res Unit
  | 0, s => (e, .ok () ((s.clearAnswers cx.who).joinPosts mark.2.port.sent.length))
  | fuel + 1, s =>
    if e.done ≥ limit then (e, .ok () ((s.clearAnswers cx.who).joinPosts mark.2.port.sent.length))
    else
      let r := step e s
      match r.2 with
      | .ok _ s' =>
        let e' := { e with done := e.done + r.1 }
        let s1 := (s'.clearAnswers cx.who).joinPosts mark.2.port.sent.length
        if e'.whole then e'.runFrom cx limit step (e', s1) fuel s1
        else e'.runFrom cx limit step mark fuel s'
      | .stall w s' => (mark.1, .stall w (mark.2.keepRequests s'))
      | .trap c t s' => (e, .trap c t ((s'.clearAnswers cx.who).joinPosts mark.2.port.sent.length))

/-- One access of a put or get within this package (R400). -/
def FabricEntry.stepHere (cx : Ctx) (e : FabricEntry) (s : State) : Nat × Res Unit :=
  let va := e.here + BitVec.ofNat 64 e.done
  let loc := e.remote.toNat % 2 ^ 44 + e.done
  let k := fabricChunk va.toNat loc (e.n - e.done)
  let p := physSpot cx.key loc
  (k, match e.kind with
    | .get => (readSpot s cx va p k .plain).bind fun v s => writeMem s cx va k v .plain
    | _ => (readMem s cx va k .plain).bind fun v s => writeSpot s cx va p k v .plain)

/-- Perform a put or get within this package from byte `done` on (R400). -/
def FabricEntry.here_ (e : FabricEntry) (cx : Ctx) (n : Nat) (s : State) : FabricEntry × Res Unit :=
  e.runFrom cx e.n (FabricEntry.stepHere cx) (e, s) n s

/-- One access of the local side of a transfer with another package (R400); a get stores `bytes`. -/
def FabricEntry.stepNear (cx : Ctx) (limit : Nat) (bytes : List Byte) (e : FabricEntry) (s : State) : Nat × Res Unit :=
  let va := e.here + BitVec.ofNat 64 e.done
  let k := fabricChunk va.toNat (e.remote.toNat + e.done) (limit - e.done)
  (k, match e.kind with
    | .get => writeMem s cx va k (ofBytes ((bytes.drop e.done).take k)) .plain
    | _ => (readMem s cx va k .plain).bind fun _ s => .ok () s)

/-- The local side of a transfer with another package, from byte `done` up to `limit` (R400). -/
def FabricEntry.local_ (e : FabricEntry) (cx : Ctx) (limit : Nat) (bytes : List Byte) (n : Nat) (s : State) : FabricEntry × Res Unit :=
  e.runFrom cx limit (FabricEntry.stepNear cx limit bytes) (e, s) n s

/-- `n` free bytes. -/
def State.freeBytes (s : State) (n : Nat) : List Byte × State :=
  ((List.range n).map fun i => BitVec.ofNat 8 (Config.freeNat (s.free + i)), { s with free := s.free + n })

/-- Tokens for a physical address of this package (R81, R400): under the key slot, its owner checked. -/
def physTokens (s : State) (cx : Ctx) (va : Word) (loc n : Nat) : Res Unit :=
  if loc % 8 ≠ 0 then .trap 0x04 va s
  else match s.check (physSpot cx.key loc) 8 true with
    | some c => .trap c va s
    | none => .ok () (s.sendTokens 0 (loc % 2 ^ 44) n)

/-! ### Ports (R35-R38) -/

/-- Is a flit a request of a hart for a package? Its TAG names the hart (log 17). -/
def PortOut.ofStream (uid pkg : Nat) (x : PortOut) : Bool :=
  match x with | .request p tag => p = pkg && tag.toNat / 2 ^ 16 = uid % 2 ^ 16 | _ => false

/-- Has a port a flit of a stream that is not acknowledged? -/
def Port.holdsStream (p : Port) (uid pkg : Nat) : Bool := (p.unacked.any fun x => x.2.ofStream uid pkg) || p.waiting.any (·.ofStream uid pkg)

/-- The plane on which a hart's flits for a package have yet to be acknowledged: the stream stays there until they are (R37). -/
def State.planeHeld (s : State) (uid pkg : Nat) : Option Nat :=
  (List.range 36).find? fun j => (List.range 4).any fun d => ((s.die d).port j).holdsStream uid pkg

/-- The flits of a hart for a package that has not answered in time are given up at the ports that are down (log 35). -/
def State.dropStream (s : State) (uid pkg : Nat) : State :=
  { s with dies := s.dies.map fun d => { d with ports := d.ports.map fun p =>
      if p.1 < 36 ∧ p.2.lanes = 0 then
        (p.1, { p.2 with unacked := p.2.unacked.filter fun x => !x.2.ofStream uid pkg, waiting := p.2.waiting.filter fun x => !x.ofStream uid pkg })
      else p } }

/-- The request of an entry of XQ goes out (R37); one flit stands for it (log 17). -/
def State.sendRequest (s : State) (h : HartId) (uid pkg : Nat) (tag : BitVec 32) : State :=
  match (s.planeHeld uid pkg).orElse fun _ => s.planeOf h pkg with
  | some j => s.onScalePort (s.planeDie h.die j) j fun p => p.send (.request pkg tag)
  | none => s

/-- The response time after which a package counts as unreachable: 1 ms (R4, R38). -/
def responseLimit : Nat := 2400000

/-! ### XQ (R400) -/

/-- The first entry of XQ is done. -/
def Hart.popFabric (x : Hart) (rest : List FabricEntry) : Hart :=
  let y := { x with qs := { x.qs with xq := rest } }
  if rest = [] then y.latch (queueBit 3) else y

/-- The first entry of XQ goes on later. -/
def Hart.holdFabric (x : Hart) (e : FabricEntry) (es : List FabricEntry) : Hart := { x with qs := { x.qs with xq := e :: es } }

/-- How the first entry of XQ ends (R397). -/
def fabricEnds (es : List FabricEntry) (r : FabricEntry × Res Unit) : Out :=
  match r with
  | (_, .ok _ s) => .next (s.onCur fun x => x.popFabric es)
  | (e, .stall _ s) => .next (s.onCur fun x => x.holdFabric e es)
  | (e, .trap c _ s) => .next (s.onCur fun x => x.queueFails 3 c e.done)

/-- The work on the first entry of XQ: what the local side takes, then what the remote package answered (R38, R397). A
transfer that the remote package stopped at a byte has performed the bytes before it: those of a get are free values. -/
def FabricEntry.remotely (e : FabricEntry) (cx : Ctx) (reply : RemoteReply) (s : State) : Option (FabricEntry × Res Unit) :=
  let fail (c : Nat) (r : FabricEntry × Res Unit) : FabricEntry × Res Unit :=
    match r with
    | (e, .ok _ s) => (e, .trap c e.here s)
    | r => r
  match reply with
  | .here => none
  | .unreachable => some (e, .trap 0x0C e.here s)
  | .refused c i =>
    if e.kind = .signal then some (e, .trap c.toNat e.here s)
    else
      let k := max e.done (min i e.n)
      let (bytes, s) := if e.kind = .get then s.freeBytes k else ([], s)
      some (fail c.toNat (e.local_ cx k bytes k s))
  | .done bytes =>
    if e.kind = .signal then some (e, .ok () s)
    else if e.kind = .get ∧ bytes.length ≠ e.n then none
    else some (e.local_ cx e.n bytes e.n s)

/-- An entry towards another package (R37, R38): its request goes out, unless no plane is live; then it waits for the response, for 1 ms, after
which the package is unreachable, for its gangs too (R43). What came stays until the local side is done. -/
def remoteEntry (e : FabricEntry) (es : List FabricEntry) (cx : Ctx) (reply : RemoteReply) (s : State) : Out :=
  match e.issued with
  | none =>
    if s.livePlanes = [] then fabricEnds es (e, .trap 0x0C e.here s)
    else .next ((s.sendRequest s.cur.id s.cur.uid (e.remote.toNat / 2 ^ 44) (BitVec.ofNat 32 (s.cur.uid * 2 ^ 16 + e.seq))).onCur fun x =>
      x.holdFabric { e with issued := some s.cycle } es)
  | some t =>
    if e.answer.isNone ∧ t + responseLimit ≤ s.cycle then
      match s.packageLost (e.remote.toNat / 2 ^ 44) with
      | .ok _ t =>
        let t := t.focus s.cur.id
        fabricEnds es (e, .trap 0x0C e.here (t.dropStream s.cur.uid (e.remote.toNat / 2 ^ 44)))
      | _ => .next s
    else
      let reply := e.answer.getD reply
      match e.remotely cx reply s with
      | none => .next s
      | some (e', r) => fabricEnds es ({ e' with answer := some reply }, r)

/-- FABRIC_ENTRY (R209, R397, R400): the first entry of XQ. Towards another package, the bytes and the outcome of the
remote side come from outside (log 17). -/
def execFabricEntry (h : HartId) (reply : RemoteReply) (s : State) : Out :=
  let s := s.focus h
  match s.cur.qs.xq with
  | [] => .next s
  | e :: es =>
    let cx := s.cur.queueCx 3 e.seq e.level
    if !s.cur.qs.ready e.after then .next s
    else if e.remote.toNat / 2 ^ 44 = s.pkgid.toNat then
      match e.kind with
      | .signal => fabricEnds es (e, physTokens s cx e.here (e.remote.toNat % 2 ^ 44) e.n)
      | _ => fabricEnds es (e.here_ cx e.n s)
    else remoteEntry e es cx reply s

end Sys2Proof.Machine
end

