-- ==== Sys2Proof/Machine/SysRegs.lean ====
section
/-! DEFINITION. The system registers: numbers, levels, values, writes (R5, R16-R28, R40, R84, R121, R141, R142, R149,
R184, R223, R249, R251, R265, R267, R269, R274, R278-R280), and SRD, SWR, SRS, SRC (R406). -/

namespace Sys2Proof.Machine

/-! ### Reading -/

/-- Which sensor values are critical or alerting: TEMP as a signed number (R17). A sensor that has not been sampled counts as 0 (log 15). -/
def Sensor.value (x : Sensor) : Int := match x.temp with | some t => t.toInt | none => 0

/-- The reset value of a sensor (R17). -/
def Sensor.fresh : Sensor := ⟨none, false, none, false, false⟩

/-- Does a sample of this cycle hold ALERT at 1 (R19)? -/
def Sensor.holds (x : Sensor) (now : Nat) : Bool := x.hot && x.sampled = some now

/-- A sensor of a die. -/
def Die.sensor (d : Die) (i : Nat) : Sensor := Table.get Sensor.fresh d.sensors i

/-- SNDATA without TEMP (R17): VALID, ALERT, CRIT. -/
def Die.sndata (d : Die) (i : Nat) : Nat :=
  let x := d.sensor i
  (if x.temp.isSome then 2 ^ 12 else 0) + (if x.alert then 2 ^ 13 else 0)
    + (if i < 256 ∧ x.temp.isSome ∧ x.value ≥ 840 then 2 ^ 14 else 0)

/-- THPEND (R19). -/
def Die.thpend (d : Die) : Nat :=
  match d.sensors.find? fun e => e.2.alert with | some e => e.1 + 2 ^ 9 | none => 0

/-- THROT0 or THROT1 (R20). -/
def State.throt (s : State) (d hi : Nat) : Nat :=
  (List.range 8).foldl (init := 0) fun a k =>
    let c := s.cluster d (8 * hi + k)
    a + (c.thr + (if c.clamp then 128 else 0)) * 2 ^ (8 * k)

/-- MISM (R22): the mismatches of the last second, saturating at 15. -/
def Pod.mismNow (p : Pod) (now : Nat) : Nat := min 15 (p.mism.filter fun t => now < t + 2400000000).length

/-- PODHLTH without AGE (R22). -/
def Pod.health (p : Pod) (now : Nat) : Nat :=
  p.eol.toNat + p.mismNow now * 2 ^ 32 + p.cause.toNat * 2 ^ 36 + (if p.retired then 2 ^ 40 else 0)
    + (if p.valid then 2 ^ 41 else 0) + p.strh.toNat * 2 ^ 42

/-- RETMAPn (R26). -/
def Die.retmap (d : Die) (n : Nat) : Nat :=
  (List.range 64).foldl (init := 0) fun a i => if (Table.get Pod.fresh d.pods (64 * n + i)).retired then a + 2 ^ i else a

/-- BOOTST (R28). -/
def Boot.word (b : Boot) : Nat := b.step + (if b.warm then 16 else 0) + b.fail * 2 ^ 8 + b.detail * 2 ^ 16

/-- D2DST (R40). -/
def Die.d2dst (d : Die) : Nat := d.up.toNat + d.downev.toNat * 16 + d.retry.toNat * 256

/-- PSTAT (R40). -/
def Port.pstat (p : Port) : Nat :=
  p.lanes + (if p.trained then 4 else 0) + (if p.evt then 8 else 0) + p.replay.toNat * 2 ^ 16 + p.crcerr.toNat * 2 ^ 32
    + p.drop.toNat * 2 ^ 48

/-- ARBST (R142). NWAIT counts the requests in state WAIT and the SUSPENDED leases, not a HELD lease that asks for more (R129): DEDUCED, log 31. -/
def State.arbst (s : State) (d c : Nat) : Nat :=
  let ls := s.leasesAt d c
  (s.livePods d c).length + (s.freePods d c).length * 2 ^ 8 + s.qsum d c * 2 ^ 16
    + min 255 (ls.filter fun x => x.lease.state = .wait ∨ x.lease.state = .suspended).length * 2 ^ 32
    + (ls.filter fun x => x.lease.state = .held).length * 2 ^ 40

/-- TRCTL (R269). -/
def Trace.ctl (t : Trace) : Nat := (if t.en then 1 else 0) + t.mask.toNat * 2 + t.stop.toNat * 2 ^ 9

/-- FLAGS, EIDX order: the register of `EIDX.NV` and on (R249). -/
def Hart.eidx (x : Hart) (k : Nat) : Nat := (x.fp.eidx.toList.getD k 0).toNat

/-- The value of an assigned register, and none for a number that is not assigned (R278, R279). A field with no
defined value (TEMP, AGE) is left to `readReg`. -/
def State.regValue (s : State) (n : Nat) : Option Nat :=
  let x := s.cur
  let v := x.vec
  let d := s.die x.id.die
  match n with
  | 0x030 => some v.seenVl
  | 0x031 => some (x.vlmax v.fmt.width)
  | 0x032 => some v.seenVbl
  | 0x033 => some (fmtCode v.fmt + (if v.blk then 16 else 0))
  | 0x034 => some ((v.session.map (·.ml)).getD 0)
  | 0x035 => some ((v.session.map (·.nl)).getD 0)
  | 0x036 => some v.cxa.toNat
  | 0x040 => some x.lease.vlreq.toNat
  | 0x041 => some x.lease.vgrant.toNat
  | 0x042 => some Config.slip
  | 0x043 => some x.cvp.toNat
  | 0x044 => some x.place.hix.toNat
  | 0x045 => some x.place.gsz.toNat
  | 0x046 => some x.place.node.toNat
  | 0x047 => some x.place.graph.toNat
  | 0x048 | 0x049 | 0x04A | 0x04B | 0x04C | 0x04D | 0x04E | 0x04F => some (v.y.toList.getD (n - 0x048) 0).toNat
  | 0x050 => some (x.ev.evl.toNat + x.ev.out * 256)
  | 0x051 => some x.ev.evr.toNat
  | 0x052 => some x.ev.mhbase.toNat
  | 0x060 => some s.shownFrame.cause.toNat
  | 0x061 => some s.shownFrame.epc.toNat
  | 0x062 => some s.shownFrame.tval.toNat
  | 0x063 => some (x.trap.depth + (if s.shownFrame.vec then 4 else 0) + (if s.shownFrame.rply then 8 else 0)
      + s.shownFrame.plv.toNat * 16)
  | 0x064 => some s.shownFrame.rpc.toNat
  | 0x065 => some x.trap.emuv.toNat
  | 0x066 => some x.trap.uscr.toNat
  | 0x067 => some x.stripst.toNat
  | 0x070 => some x.fp.flags.toNat
  | 0x071 => some x.fp.frm.toNat
  | 0x072 | 0x073 | 0x074 | 0x075 | 0x076 => some (x.eidx (n - 0x072))
  | 0x080 => some x.cyc.scalar.toNat
  | 0x081 => some x.cyc.vector.toNat
  | 0x082 => some x.cyc.memory.toNat
  | 0x083 => some x.cyc.lease.toNat
  | 0x084 => some x.cyc.idle.toNat
  | 0x088 => some x.trap.bpa0.toNat
  | 0x089 => some x.trap.bpa1.toNat
  | 0x08A => some x.trap.bpctl.toNat
  | 0x400 => some x.trap.stvec.toNat
  | 0x401 => some x.trap.sscr.toNat
  | 0x402 => some d.splbase.toNat
  | 0x403 => some (d.spln.toNat + d.splUsed.length * 2 ^ 32 + d.splWaits.toNat * 2 ^ 48)
  | 0x404 | 0x480 | 0x481 => some 0
  | 0x482 => some x.sel.gstat.toNat
  | 0x483 => some x.sel.twsel.toNat
  | 0x484 => some (Table.get 1 s.engines.weight x.sel.twsel.toNat)
  | 0x485 => some d.tokunb.toNat
  | 0x490 => some x.sel.arbsel.toNat
  | 0x491 => some (s.arbst x.id.die x.sel.arbsel.toNat)
  | 0x4A0 => some d.steward.ring.toNat
  | 0x4A1 => some d.steward.tail.toNat
  | 0x4A2 => some d.steward.head.toNat
  | 0x4A3 => some (d.steward.serv.toNat + d.steward.evict.toNat * 2 ^ 16 + d.steward.waits.toNat * 2 ^ 32
      + d.steward.badfr.toNat * 2 ^ 48)
  | 0x4B0 => some x.sel.trsel.toNat
  | 0x4B1 => some (s.trace x.id.die x.sel.trsel.toNat).ctl
  | 0x4B2 => some (s.trace x.id.die x.sel.trsel.toNat).graph.toNat
  | 0x4B3 => let t := s.trace x.id.die x.sel.trsel.toNat; some (t.log2.toNat + t.va.toNat * 65536)
  | 0x4B4 => some (s.trace x.id.die x.sel.trsel.toNat).loss.toNat
  | 0x4B8 => some ((if d.sckEn then 1 else 0) + d.sckCount.toNat * 2 ^ 32)
  | 0x4BA => some (d.sckAddr.toNat + (if d.sckValid then 2 ^ 63 else 0))
  | 0x800 => some x.sel.snsel.toNat
  | 0x801 => some (d.sndata x.sel.snsel.toNat)
  | 0x802 => some d.thalert.toNat
  | 0x803 => some d.thpend
  | 0x804 => some (s.throt x.id.die 0)
  | 0x805 => some (s.throt x.id.die 1)
  | 0x806 => some x.sel.hlsel.toNat
  | 0x807 => some ((s.pod x.id.die x.sel.hlsel.toNat).health s.cycle)
  | 0x808 => some 0
  | 0x809 | 0x80A | 0x80B | 0x80C => some (d.retmap (n - 0x809))
  | 0x80D => some d.hmargin.toNat
  | 0x80E => some d.boot.word
  | 0x80F => some d.pwrnow.toNat
  | 0x810 => some d.d2dst
  | 0x811 => some x.sel.psel.toNat
  | 0x812 => some (d.port x.sel.psel.toNat).pstat
  | 0x813 => some s.pkgid.toNat
  | 0x814 => some d.launchto.toNat
  | 0x820 => some x.trap.mtvec.toNat
  | 0x821 => some x.trap.mscr.toNat
  | _ => none

/-- The monitors of a Pod may have changed AGE and added stress-hours since the last read (R22): by free values (log 15). -/
def State.measurePod (s : State) (d p : Nat) : State :=
  let n := s.free
  let s := { s with free := s.free + 3 }
  if Config.freeNat n % 2 = 0 ∨ (s.die d).boot.step < 8 then s
  else s.onPod d p fun q => { q with age := some (BitVec.ofNat 16 (Config.freeNat (n + 1)))
                                     strh := BitVec.ofNat 20 (min 0xFFFFF (q.strh.toNat + Config.freeNat (n + 2))) }

/-- The value of a register: TEMP before the first sample and AGE before it is known are free values (log 15). -/
def State.readReg (s : State) (n : Nat) : Option (Word × State) :=
  let s := if n = 0x807 then s.measurePod s.cur.id.die s.cur.sel.hlsel.toNat else s
  match s.regValue n with
  | none => none
  | some v =>
    let x := s.cur
    let open_ : Option (Nat × Nat) :=
      if n = 0x801 then some (match ((s.die x.id.die).sensor x.sel.snsel.toNat).temp with | some t => (t.toNat, 0) | none => (0, 12))
      else if n = 0x807 then some (match (s.pod x.id.die x.sel.hlsel.toNat).age with | some a => (a.toNat * 2 ^ 16, 0) | none => (0, 16))
      else none
    match open_ with
    | none => some (BitVec.ofNat 64 v, s)
    | some (k, 0) => some (BitVec.ofNat 64 (v + k), s)
    | some (_, w) =>
      let (f, s) := s.fresh
      some (BitVec.ofNat 64 (v + f % 2 ^ w * (if w = 16 then 2 ^ 16 else 1)), s)

/-! ### Writing (R5) -/

/-- Slot 0 of a management core. -/
def mgmtSlot (d : Nat) : HartId := ⟨d, Config.mgmtCluster, 0, 0⟩

/-- An event for a die's management core (R19, R40, R225); its TVAL is a free value. -/
def State.mgmtEvent (s : State) (d : Nat) (code : BitVec 8) : State :=
  let (n, s) := s.fresh
  s.onHart (mgmtSlot d) fun x => x.holdEvent code (BitVec.ofNat 64 n)

/-- The RW bits of a register: the fields that SRS and SRC change (R406). -/
def rwMask (n : Nat) : Word :=
  match n with
  | 0x036 => ~~~0xFFF | 0x052 => ~~~7 | 0x063 => 8 | 0x064 | 0x065 => ~~~3 | 0x066 => -1
  | 0x070 => 31 | 0x071 => 3 | 0x072 | 0x073 | 0x074 | 0x075 | 0x076 => 0xFFFFFFFF
  | 0x080 | 0x081 | 0x082 | 0x083 | 0x084 => -1 | 0x088 | 0x089 => -1 | 0x08A => 1
  | 0x400 => ~~~2 | 0x401 => -1 | 0x402 => 0xFFFFFFFFFF0000 | 0x403 => 0xFFFF
  | 0x483 | 0x484 => 0xFF | 0x490 => 15 | 0x4A0 => 0xFFFFFFFFFFF01F | 0x4A1 => 0xFFFFFFFF
  | 0x4B0 => 3 | 0x4B1 => 0x1FF | 0x4B2 => 0xFFFFFFFFFFFFFF | 0x4B3 => ~~~0xFFF0 | 0x4B8 => 0xFFFFFFFF00000001
  | 0x800 => 0x1FF | 0x802 => 0xFFF | 0x804 | 0x805 => 0x1F1F1F1F1F1F1F1F | 0x806 => 0xFF | 0x807 => 0xFFFF | 0x80D => 0xFFFF
  | 0x811 => 0x3F | 0x813 => 0xFFF | 0x814 => 0xFFFFF | 0x820 => ~~~3 | 0x821 => -1
  | _ => 0

/-- Write RPLY or RPC of the frame shown (R223). -/
def State.onShownFrame (s : State) (f : Frame → Frame) : State := s.setFrame (s.cur.trap.depth - 1) (f s.shownFrame)

/-- A write of THROT0 or THROT1 (R20): a byte with N outside 1 to 16 keeps its N. -/
def State.writeThrot (s : State) (d hi v : Nat) : State :=
  (List.range 8).foldl (init := s) fun s k =>
    let n := v / 2 ^ (8 * k) % 32
    if 1 ≤ n ∧ n ≤ 16 then s.onCluster d (8 * hi + k) fun c => { c with thr := n } else s

/-- A write of TRCTL (R269): MASK, then EN, whose rise starts the session. -/
def State.writeTrctl (s : State) (d n : Nat) (v : Word) : State :=
  let s := s.onTrace d n fun t => { t with mask := BitVec.ofNat 8 (v.toNat / 2) }
  if v.getLsbD 0 then s.startTrace d n
  else s.onTrace d n fun t => if t.en then { t with en := false, staged := [] } else t

/-- Software clears ALERT of sensor `i`; a sample of the same cycle wins, and raises the event if it has not (R19). -/
def State.clearAlert (s : State) (d i : Nat) : State :=
  let q := (s.die d).sensor i
  let put (s : State) (q : Sensor) : State := s.onDie d fun y => { y with sensors := Table.set Sensor.fresh y.sensors i q }
  if q.alert && q.holds s.cycle then (if q.told then s else (put s { q with told := true }).mgmtEvent d 0x23)
  else put s { q with alert := false }

/-- Write ones to EVL: a bit whose event comes in the same cycle stays 1 (R156). -/
def Events.clear (e : Events) (v : BitVec 6) : Events := { e with evl := e.evl &&& ~~~(v &&& ~~~e.recent) }

/-- A write of an assigned register under R5; other numbers change nothing. -/
def State.writeReg (s : State) (n : Nat) (v : Word) : Res Unit :=
  let x := s.cur
  let d := x.id.die
  let w := v.toNat
  let keep := v &&& rwMask n
  let trap (f : Traps → Traps) : Res Unit := .ok () (s.onCur fun x => { x with trap := f x.trap })
  let sel (f : Selectors → Selectors) : Res Unit := .ok () (s.onCur fun x => { x with sel := f x.sel })
  let fp (f : Fp → Fp) : Res Unit := .ok () (s.onCur fun x => { x with fp := f x.fp })
  let cyc (f : Cycles → Cycles) : Res Unit := .ok () (s.onCur fun x => { x with cyc := f x.cyc })
  let die (f : Die → Die) : Res Unit := .ok () (s.onDie d f)
  match n with
  | 0x036 => if x.vec.session.isSome then .ok () s else .ok () (s.onCur fun x => { x with vec := { x.vec with cxa := keep } })
  | 0x050 => .ok () (s.onCur fun x => { x with ev := x.ev.clear (BitVec.ofNat 6 w) })
  | 0x052 => .ok () (s.onCur fun x => { x with ev := { x.ev with mhbase := keep } })
  | 0x063 => .ok () (s.onShownFrame fun f => { f with rply := v.getLsbD 3 })
  | 0x064 => .ok () (s.onShownFrame fun f => { f with rpc := keep })
  | 0x065 => trap fun t => { t with emuv := keep }
  | 0x066 => trap fun t => { t with uscr := v }
  | 0x070 => fp fun p => { p with flags := BitVec.ofNat 5 w }
  | 0x071 => fp fun p => { p with frm := BitVec.ofNat 2 w }
  | 0x072 | 0x073 | 0x074 | 0x075 | 0x076 =>
    fp fun p => { p with eidx := p.eidx.mapFinIdx fun k i _ => if k = n - 0x072 then BitVec.ofNat 32 w else i }
  | 0x080 => cyc fun c => { c with scalar := v }
  | 0x081 => cyc fun c => { c with vector := v }
  | 0x082 => cyc fun c => { c with memory := v }
  | 0x083 => cyc fun c => { c with lease := v }
  | 0x084 => cyc fun c => { c with idle := v }
  | 0x088 => trap fun t => { t with bpa0 := v }
  | 0x089 => trap fun t => { t with bpa1 := v }
  | 0x08A => trap fun t => { t with bpctl := v.getLsbD 0 }
  | 0x400 => trap fun t => { t with stvec := keep }
  | 0x401 => trap fun t => { t with sscr := v }
  | 0x402 => die fun y => if y.splUsed = [] then { y with splbase := keep } else y
  | 0x403 => die fun y => if y.splUsed = [] then { y with spln := BitVec.ofNat 16 w } else y
  | 0x404 => .ok () (s.preempt d (w % 2048))
  | 0x480 => match s.attach (BitVec.ofNat 56 w) with | .stall _ s => .stall .attach s | r => r
  | 0x481 => s.detach (BitVec.ofNat 56 w)
  | 0x483 => sel fun y => { y with twsel := BitVec.ofNat 8 w }
  | 0x484 => .ok () (s.onEngines fun e => { e with weight := Table.set 1 e.weight x.sel.twsel.toNat (w % 256) })
  | 0x485 => die fun y => { y with tokunb := y.tokunb &&& ~~~(BitVec.ofNat 32 w) }
  | 0x490 => sel fun y => { y with arbsel := BitVec.ofNat 4 w }
  | 0x4A0 => die fun y => { y with steward := y.steward.writeRing v }
  | 0x4A1 => die fun y => { y with steward := y.steward.writeTail v }
  | 0x4B0 => sel fun y => { y with trsel := BitVec.ofNat 2 w }
  | 0x4B1 => .ok () (s.writeTrctl d x.sel.trsel.toNat v)
  | 0x4B2 => .ok () (s.onTrace d x.sel.trsel.toNat fun t => if t.en then t else { t with graph := BitVec.ofNat 56 w })
  | 0x4B3 => .ok () (s.onTrace d x.sel.trsel.toNat fun t =>
      if t.en then t else { t with log2 := BitVec.ofNat 4 w, va := BitVec.ofNat 48 (w / 65536) })
  | 0x4B8 => .ok () ((s.onDie d fun y => { y with sckEn := v.getLsbD 0, sckCount := BitVec.ofNat 32 (w / 2 ^ 32) }).onStore fun st =>
      if v.getLsbD 0 then st else { st with tags := st.tags.filter fun t => homeDie (t.1 * 64) ≠ d })
  | 0x4BA => die fun y => if v.getLsbD 63 then { y with sckValid := false } else y
  | 0x800 => if w % 512 < 264 then sel fun y => { y with snsel := BitVec.ofNat 9 w } else .ok () s
  | 0x801 => if v.getLsbD 13 then .ok () (s.clearAlert d x.sel.snsel.toNat) else .ok () s
  | 0x802 => die fun y => { y with thalert := BitVec.ofNat 12 w }
  | 0x804 => .ok () (s.writeThrot d 0 w)
  | 0x805 => .ok () (s.writeThrot d 1 w)
  | 0x806 => sel fun y => { y with hlsel := BitVec.ofNat 8 w }
  | 0x807 => .ok () (s.writeEol d x.sel.hlsel.toNat (BitVec.ofNat 16 w))
  | 0x808 => .ok () (s.retirePod d (w % 256) 4)
  | 0x80D => .ok () (s.writeHmargin d (BitVec.ofNat 16 w))
  | 0x810 => die fun y => { y with downev := y.downev &&& ~~~(BitVec.ofNat 4 (w / 16)) }
  | 0x811 => if w % 64 < 36 then sel fun y => { y with psel := BitVec.ofNat 6 w } else .ok () s
  | 0x812 => if v.getLsbD 3 then die fun y =>
      { y with ports := Table.set Port.fresh y.ports x.sel.psel.toNat { y.port x.sel.psel.toNat with evt := false } }
    else .ok () s
  | 0x813 => if d = 0 ∧ (s.die 0).boot.step < 8 then .ok () { s with pkgid := BitVec.ofNat 12 w } else .ok () s
  | 0x814 => if w % 2 ^ 20 = 0 then .ok () s else die fun y => { y with launchto := BitVec.ofNat 20 w }
  | 0x820 => trap fun t => { t with mtvec := keep }
  | 0x821 => trap fun t => { t with mscr := v }
  | _ => .ok () s

/-! ### SRD, SWR, SRS, SRC (R278, R406) -/

/-- The level a register number belongs to (R278). -/
def regLevel (n : Nat) : Nat := n / 0x400

/-- An access to a register: decided in the order of R278, then `f` acts on the old value. -/
def sysAccess (i : Instr) (n : BitVec 12) (s : State) (f : Word → State → Res Unit) : Out :=
  scalar i s fun s =>
    if n.toNat ≥ 0xC00 then illegal i s
    else if regLevel n.toNat > s.cur.base.level.code then .trap 0x03 i.word s
    else match s.readReg n.toNat with
      | none => illegal i s
      | some (old, s) => f old s

/-- SRD (R406). -/
def execSrd (d : Gpr) (n : BitVec 12) (s : State) : Out :=
  sysAccess (.srd d n) n s fun old s => .ok () (s.put d old)

/-- SWR (R406). -/
def execSwr (a : Gpr) (n : BitVec 12) (s : State) : Out :=
  sysAccess (.swr a n) n s fun _ s => (s.writeReg n.toNat (s.g a)).bind fun _ s => .ok () s.advance

/-- SRS (R406): RW fields are ORed; every other field is written with the operand. -/
def execSrs (d a : Gpr) (n : BitVec 12) (s : State) : Out :=
  sysAccess (.srs d a n) n s fun old s =>
    (s.writeReg n.toNat (old &&& rwMask n.toNat ||| s.g a)).bind fun _ s => .ok () (s.put d old)

/-- SRC (R406): RW fields lose the operand's bits; every other field is written with 0. -/
def execSrc (d a : Gpr) (n : BitVec 12) (s : State) : Out :=
  sysAccess (.src d a n) n s fun old s =>
    (s.writeReg n.toNat (old &&& ~~~(s.g a) &&& rwMask n.toNat)).bind fun _ s => .ok () (s.put d old)

end Sys2Proof.Machine
end

