-- ==== Sys2Proof/Machine/Manage.lean ====
section
/-! DEFINITION. The dies and what joins them: sensors and power (R14-R21), die-to-die links and scale-up ports (R30-R44),
start-up (R27-R29, R51). -/

namespace Sys2Proof

/-- The 252 bytes of a flit that its CRC covers (R35). -/
def Flit.covered (f : Flit) : List Byte :=
  let header := f.kind.toNat + f.vc.toNat * 2 ^ 4 + f.seq.toNat * 2 ^ 6 + f.ack.toNat * 2 ^ 18 + (if f.ackv then 2 ^ 30 else 0)
    + (if f.rsv31 then 2 ^ 31 else 0) + f.dpkg.toNat * 2 ^ 32 + f.spkg.toNat * 2 ^ 44 + f.plen.toNat * 2 ^ 56 + f.rsv61.toNat * 2 ^ 61
    + f.tag.toNat * 2 ^ 64
  Machine.toBytes 12 header ++ f.payload.take 240 ++ List.replicate (240 - f.payload.length) 0

/-- Must the flit be dropped: a reserved KIND, PLEN above 30, a reserved bit (R35)? -/
def Flit.malformed (f : Flit) : Bool := f.kind.toNat ≥ 5 || f.plen.toNat > 30 || f.rsv31 || f.rsv61 ≠ 0

/-- Is a flit of its kind, on the virtual channel of that kind (R35), and does it hold the bytes that its body writes? One that is not
asks for nothing (log 17). -/
def Flit.fits (f : Flit) : Bool :=
  match f.body with
  | .put _ _ bytes => f.kind = 1 && f.vc = 0 && bytes.length ≤ 8 * f.plen.toNat
  | .get .. => f.kind = 1 && f.vc = 0
  | .response _ => f.kind = 2 && f.vc = 1
  | .sig .. | .gang _ => f.kind = 3 && f.vc = 2
  | .nak => f.kind = 4 && f.vc = 3
  | .idle => f.kind = 0

end Sys2Proof

namespace Sys2Proof.Machine

/-- The package halts with a failure code on every die (R29). -/
def State.halt (s : State) (fail detail : Nat) : State :=
  { s with dies := s.dies.map fun d => { d with boot := { d.boot with fail := fail, detail := detail } } }

/-! ### Sensors, clamp, power (R14, R17-R21) -/

/-- Core cycles between two samples of a sensor: 10 µs (R4, R17). -/
def samplePeriod : Nat := 24000

/-- May a sensor be sampled now (R17): from step 7 of start-up on, every 10 µs? -/
def State.sampleDue (s : State) (d i : Nat) : Bool :=
  7 ≤ (s.die d).boot.step && ((s.die d).sensor i).sampled.all (· + samplePeriod ≤ s.cycle)

/-- A sample of a sensor (R17, R19): ALERT, and the event when it rises. THALERT is compared as a signed number (log 15). -/
def State.sample (s : State) (d i : Nat) (t : BitVec 12) : State :=
  let x := (s.die d).sensor i
  if !s.sampleDue d i then s
  else
    let hot : Bool := (s.die d).thalert.toInt ≤ t.toInt
    let rises := hot && !x.alert
    let s' := s.onDie d fun y => { y with sensors := Table.set Sensor.fresh y.sensors i ⟨some t, x.alert || hot, some s.cycle, hot, rises⟩ }
    if rises then s'.mgmtEvent d 0x23 else s'

/-- The sensors of a cluster (R17). -/
def State.clusterSensors (s : State) (d c : Nat) : List Sensor := (List.range 16).map fun i => (s.die d).sensor (16 * c + i)

/-- The clamp of a cluster is released when every sensor reads 100.0 °C or less (R14). -/
def State.releaseClamp (s : State) (d c : Nat) : State :=
  if (s.clusterSensors d c).all fun x => x.value ≤ 800 then s.onCluster d c fun k => { k with clamp := false } else s

/-- THERMAL_SAMPLE (R14, R17, R19). -/
def execThermalSample (die : Nat) (temps : List (Nat × BitVec 12)) (s : State) : Out :=
  let s := (temps.filter fun t => t.1 < 264).foldl (init := s) fun s t => s.sample die t.1 t.2
  .next ((List.range 16).foldl (init := s) fun s c => if (s.cluster die c).clamp then s.releaseClamp die c else s)

/-- CLAMP (R14): set at 105.0 °C, released at 100.0 °C. -/
def execClamp (die clu : Nat) (s : State) : Out :=
  if clu ≥ 16 then .next s
  else if (s.clusterSensors die clu).any fun x => x.temp.isSome && 840 ≤ x.value then
    .next (s.onCluster die clu fun k => { k with clamp := true })
  else .next (if (s.cluster die clu).clamp then s.releaseClamp die clu else s)

/-- Core cycles between two measurements of a die's power: 100 µs (R4, R15). -/
def powerPeriod : Nat := 240000

/-- POWER_MEASURE (R15, R21): every 100 µs. -/
def execPowerMeasure (die : Nat) (watts : BitVec 16) (s : State) : Out :=
  .next (if (s.die die).measured.all (· + powerPeriod ≤ s.cycle) then
    s.onDie die fun d => { d with pwrnow := watts, measured := some s.cycle } else s)

/-! ### Die-to-die links (R30-R33, R40, R43) -/

/-- The state of a link: 0 in use, 1 retraining, 2 switching over, 3 down. -/
def State.linkState (s : State) (n : Nat) : Nat := Table.get 0 s.links n

/-- Set the state of a link. -/
def State.setLink (s : State) (n v : Nat) : State := { s with links := Table.set 0 s.links n v }

/-- A die learns that its link to die `b` is down (R40). -/
def State.dieLinkDown (s : State) (a b : Nat) : State :=
  let was := (s.die a).downev.getLsbD b
  let s := s.onDie a fun d => { d with up := d.up &&& ~~~((1 : BitVec 4) <<< b), downev := d.downev ||| (1 <<< b) }
  if was then s else s.mgmtEvent a 0x24

/-- The dies of a run (R43): those on which it has harts, pre-empted ones among them, and its home die, to which their sidebands lead (R31;
log 33); while its launch has yet to commit, those that take part (R42). -/
def State.linkedDies (s : State) (r : Run) : List Nat :=
  match s.launchOf r.id with
  | some l => r.home :: (l.plan.map (·.1)) ++ s.runDies r.id s.nextUid
  | none => r.home :: s.runDies r.id s.nextUid

/-- What a link's failure does to the runs (R42-R44): a launch without commit fails, a committed node is disturbed. -/
def linkLost (s : State) (n a b : Nat) : List Nat → Res Unit
  | [] => .ok () s
  | i :: is =>
    let r : Res Unit := match s.runById i with
      | none => .ok () s
      | some r => if (s.linkedDies r).contains a && (s.linkedDies r).contains b then s.runLoses r n else .ok () s
    r.bind fun _ s => linkLost s n a b is

/-- The links that are down, or go down, and have no third die: the one that fails now first (R33, log 35). -/
def State.stranded (s : State) (n : Nat) : Option Nat :=
  (n :: (List.range 6).filter fun m => m ≠ n && 2 ≤ s.linkState m).find? fun m => (s.detour (linkDies m).1 (linkDies m).2).isNone

/-- A link goes down (R32, R33, R40, R43). -/
def State.linkDown (s : State) (n : Nat) : Res Unit :=
  let (a, b) := linkDies n
  let s := (s.dieLinkDown a b).dieLinkDown b a
  match s.stranded n with
  | some m => .ok () ((s.setLink n 3).halt 8 m)
  | none => linkLost (s.setLink n 2) n a b (s.engines.runs.map (·.id))

/-! ### Scale-up ports (R34-R38) -/

/-- EVT of a port rises (R40). -/
def State.portEvent (s : State) (d j : Nat) : State :=
  if ((s.die d).port j).evt then s else (s.onScalePort d j fun p => { p with evt := true }).mgmtEvent d 0x24

/-- The flits that an ACK or NAK names as received leave the sender's store (R35, R36). -/
def Port.acked (p : Port) (k : BitVec 12) : Port :=
  if p.unacked.any (·.1 = k) then
    ({ p with unacked := (p.unacked.dropWhile (·.1 ≠ k)).drop 1, again := 0 } : Port).flush
  else p

/-- A NAK: every flit after the SEQ that it names is sent again (R36). REPLAY counts one for it, however many flits go again (DEDUCED,
log 35). -/
def Port.replayAfter (p : Port) (k : BitVec 12) : Port :=
  let q := p.acked k
  if q.unacked = [] then q
  else { q with replay := satAdd q.replay 1, again := q.again + 1, sent := q.sent ++ q.unacked.map (·.2) }

/-- The context of a remote package's accesses (R400): its key slot, the fabric class; the requester is the entry that the flit's TAG
names in the package that sent it (R191, log 42). -/
def remoteCx (die port slot : Nat) (f : Flit) : Ctx :=
  { engineCtx die slot 0 with who := 2 ^ 42 + die * 64 + port, cls := 2, req := ⟨98, f.spkg.toNat, f.tag.toNat, 0⟩ }

/-- Write bytes at a package offset; the byte at which it fails (R397). -/
def remoteWrite (s : State) (cx : Ctx) (loc i : Nat) : List Byte → Res (Option (Nat × Nat))
  | [] => .ok none s
  | b :: bs => match writeSpot s cx 0 (physSpot cx.key (loc + i)) 1 b.toNat .plain with
    | .ok _ s => remoteWrite s cx loc (i + 1) bs
    | .trap c _ s => .ok (some (c, i)) s
    | .stall w s => .stall w s

/-- Read bytes at a package offset: those before the failure, and the failure. -/
def remoteRead (s : State) (cx : Ctx) (loc : Nat) : Nat → Nat → Res (List Byte × Option (Nat × Nat))
  | _, 0 => .ok ([], none) s
  | i, n + 1 => match readSpot s cx 0 (physSpot cx.key (loc + i)) 1 .plain with
    | .ok v s => (remoteRead s cx loc (i + 1) n).bind fun r s => .ok (BitVec.ofNat 8 v :: r.1, r.2) s
    | .trap c _ s => .ok ([], some (c, i)) s
    | .stall w s => .stall w s

/-- What a flit that a scale-up port has received in order asks for (R35, R39, R81, R400). One for another package, and one on a link
between dies, asks for nothing here: its accesses are made by their requesters (logs 17 and 35). A response goes by a live port of the plane (R37). -/
def deliverFlit (s : State) (d j : Nat) (f : Flit) : Res Unit :=
  let answer (r : RemoteReply) (s : State) : Res Unit := .ok () (s.onScalePort (s.planeDie d j) j fun p => p.send (.response f.tag r))
  if f.dpkg ≠ s.pkgid || !f.fits || j ≥ 36 then .ok () s
  else match f.body with
    | .put addr slot bytes => (remoteWrite s (remoteCx d j slot f) addr 0 bytes).bind fun r s =>
      match r with
      | none => answer (.done []) s
      | some (c, i) => answer (.refused (BitVec.ofNat 8 c) i) s
    | .get addr slot n => (remoteRead s (remoteCx d j slot f) addr 0 n).bind fun r s =>
      match r.2 with
      | none => answer (.done r.1) s
      | some (c, i) => answer (.refused (BitVec.ofNat 8 c) i) s
    | .sig addr n slot => (match physTokens s (remoteCx d j slot f) 0 addr n with
      | .trap c _ s => answer (.refused (BitVec.ofNat 8 c) 0) s
      | .stall w s => .stall w s
      | .ok _ s => answer (.done []) s)
    | .gang w => s.takeGang f.spkg.toNat w
    | _ => .ok () s

/-- The SEQ that a port expects next: after reset the first is 0. -/
def Port.expects (p : Port) : BitVec 12 := match p.rcvd with | some k => k + 1 | none => 0

/-- What a flit asks for is done; where it must wait, it is held, and what follows it behind it (R361, R36). -/
def State.takeFlit (s : State) (die port : Nat) (f : Flit) : State :=
  let hold (s : State) : State := s.onScalePort die port fun p => { p with held := p.held ++ [f] }
  if ((s.die die).port port).held ≠ [] then hold s
  else match deliverFlit s die port f with
    | .ok _ t | .trap _ _ t => t.clearAnswers (remoteCx die port 0 f).who
    | .stall _ t => hold (s.keepRequests t)

/-- The first flit that a port holds is done, once it can be. -/
def portResumes (die port : Nat) (s : State) : Out :=
  match ((s.die die).port port).held with
  | [] => .next s
  | f :: fs =>
    let t := (s.onScalePort die port fun p => { p with held := [] }).takeFlit die port f
    .next (t.onScalePort die port fun p => { p with held := p.held ++ fs })

/-- A NAK on a link between dies counts in RETRY of D2DST (R40). -/
def State.countReplay (s : State) (die port : Nat) : State :=
  if port < 36 ∨ ((s.die die).port port).unacked = [] then s else s.onDie die fun d => { d with retry := satAdd d.retry 1 }

/-- FLIT_RECEIVE (R35, R36) at a scale-up port, or from 36 on at the end of a link to another die (R30): a bad CRC, a flit out of order,
one that must be dropped, a delivery. Idle and link-control flits carry a SEQ in order as the others do; the port's own NAK takes none
(log 17). -/
def execFlitReceive (die port : Nat) (f : Flit) (s : State) : Out :=
  let p := (s.die die).port port
  if p.lanes = 0 || p.retraining then .next s
  else if crc32c f.covered ≠ f.crc.toNat then
    .next (s.onScalePort die port fun p => { p with crcerr := satAdd p.crcerr 1, sent := p.sent ++ [.nak (p.rcvd.getD 0xFFF)] })
  else
    let s := if f.ackv then s.onScalePort die port fun p => p.acked f.ack else s
    if f.seq ≠ p.expects then .next s
    else
      let s := s.onScalePort die port fun p => { p with rcvd := some f.seq }
      if f.malformed then .next (s.onScalePort die port fun p => { p with drop := satAdd p.drop 1 })
      else if f.body = .nak ∧ f.fits then .next ((s.onScalePort die port fun p => p.replayAfter f.ack).countReplay die port)
      else .next (s.takeFlit die port f)

/-- Change both ends of a link between dies. -/
def State.onLinkEnds (s : State) (n : Nat) (f : Port → Port) : State :=
  let (a, b) := linkDies n
  (s.onScalePort a (36 + b) f).onScalePort b (36 + a) f

/-- A port or link end has trained again (R36): what waits is sent. -/
def Port.trainedAgain (p : Port) (lanes : Nat) : Port := ({ p with lanes := lanes, retraining := false, again := 0 } : Port).flush

/-- What a port that has lost both lanes had still to deliver goes to the live port of its plane (R37); with none it stays (R38). -/
def State.reroute (s : State) (d j : Nat) : State :=
  let p := (s.die d).port j
  let e := s.planeDie d j
  if p.lanes ≠ 0 ∨ e = d ∨ ((s.die e).port j).lanes = 0 then s
  else
    let xs := p.unacked.map (·.2) ++ p.waiting
    (s.onScalePort d j fun p => { p with unacked := [], waiting := [] }).onScalePort e j fun q => xs.foldl Port.send q

/-- A flit of a link between dies arrives at its other end, which takes it in order, discards it if it has it, and acknowledges it
(R30, R36). -/
def execLinkDeliver (a b : Nat) (s : State) : Out :=
  let p := (s.die a).port (36 + b)
  if s.linkBusy a b || s.linkGone a b || p.lanes = 0 || p.retraining then .next s
  else match p.unacked with
    | [] => .next s
    | x :: _ =>
      let s := s.onScalePort b (36 + a) fun q => if x.1 = q.expects then { q with rcvd := some x.1 } else q
      .next (s.onScalePort a (36 + b) fun p => p.acked x.1)

/-- RETRAIN (R36): the same flit has been replayed 8 times in a row; traffic is held. -/
def execRetrain (l : LinkId) (s : State) : Out :=
  match l with
  | .port d j =>
    if ((s.die d).port j).again < 8 then .next s else .next (s.onScalePort d j fun p => { p with retraining := true })
  | .d2d n =>
    if n ≥ 6 ∨ s.linkState n ≠ 0 then .next s
    else
      let (a, b) := linkDies n
      if ((s.die a).port (36 + b)).again < 8 ∧ ((s.die b).port (36 + a)).again < 8 then .next s
      else .next ((s.setLink n 1).onLinkEnds n fun p => { p with retraining := true })

/-- RETRAIN_DONE (R32, R36, R37): the lanes that trained again. A link between dies that trains with one lane of two has trained with success:
it goes on with that lane, as a port does (DEDUCED, log 35). -/
def execRetrainDone (l : LinkId) (lanes : Nat) (s : State) : Out :=
  match l with
  | .port d j =>
    let p := (s.die d).port j
    if !p.retraining then .next s
    else
      let k := min lanes p.lanes
      let s := (s.onScalePort d j fun p => if k = 0 then { p with lanes := 0, retraining := false, again := 0 } else p.trainedAgain k).reroute d j
      .next (if k ≠ p.lanes then s.portEvent d j else s)
  | .d2d n =>
    if s.linkState n ≠ 1 then .next s
    else if lanes ≠ 0 then .next ((s.setLink n 0).onLinkEnds n fun p => p.trainedAgain (min lanes p.lanes))
    else engineEvent s (linkDies n).1 ((s.onLinkEnds n fun p => { p with lanes := 0, retraining := false }).linkDown n)

/-- The flits that a link's end has sent and that the other end has not taken, then those that wait, go over the detour in their order; the
receiver discards what it has already accepted (R32). -/
def State.replayOver (s : State) (a b : Nat) : State :=
  let p := (s.die a).port (36 + b)
  let taken := ((s.die b).port (36 + a)).rcvd
  let left := if p.unacked.any fun x => some x.1 = taken then (p.unacked.dropWhile fun x => some x.1 ≠ taken).drop 1 else p.unacked
  let s := s.onScalePort a (36 + b) fun p => { p with unacked := [], waiting := [] }
  (left.map (·.2) ++ p.waiting).foldl (init := s) fun s _ => s.overLink a b

/-- SWITCHOVER_END (R32): the flits that the link had not acknowledged go over the detour; held traffic goes on. -/
def execSwitchoverEnd (link : Nat) (s : State) : Out :=
  let (a, b) := linkDies link
  .next (if s.linkState link = 2 then ((s.setLink link 3).replayOver a b).replayOver b a else s)

/-- PACKAGE_UNREACHABLE (R38, R42, R43, R397): the first entry of each XQ towards the package stops; a gang with harts there fails its launch,
or is disturbed. -/
def execPackageUnreachable (pkg : Nat) (s : State) : Out :=
  if pkg = s.pkgid.toNat then .next s
  else engineEvent s 0 ((s.packageLost pkg).bind fun _ s =>
    .ok () (s.mapHarts fun x => match x.qs.xq with
      | e :: _ => if e.remote.toNat / 2 ^ 44 = pkg ∧ x.qs.ready e.after then x.queueFails 3 0x0C e.done else x
      | [] => x))

/-! ### Start-up (R27, R28, R51) -/

/-- Every die's start-up status. -/
def State.onBoots (s : State) (f : Boot → Boot) : State := { s with dies := s.dies.map fun d => { d with boot := f d.boot } }

/-- A start begins (R51): nothing of the run before is kept but the registers of R50, the MSI-X table of a function that has not
been reset, and lines with a lasting defect, or a soft error that the scrub has yet to clear. -/
def State.beginStart (s : State) (warm regs : Bool) : State :=
  let q := s.port
  let port := { Port0.reset with sent := q.sent }
  let port := if regs then { port with featmask := q.featmask, time := q.time, phase := q.phase, tokbase := q.tokbase, hwbase := q.hwbase
                                       herr := q.herr, hapt := q.hapt, msix := q.msix, fmask := q.fmask } else port
  { State.reset with
    store := { Store.reset with poison := s.store.poison, soft := s.store.soft }
    port := port, retained := s.retained, warm := warm, nextUid := s.nextUid, agenda := s.agenda, turn := s.turn, free := s.free }

/-- Every retired Pod, as the retirement map (R27). The map holds each Pod's CAUSE, from which a warm start takes it: what the region holds beside
the map the manual does not say (DESIGN CHOICE, log 36). -/
def State.retirementMap (s : State) : List (Nat × Nat × BitVec 4) :=
  (List.range 4).flatMap fun d => (s.die d).pods.filterMap fun e => if e.2.retired then some (d, e.1, e.2.cause) else none

/-- Die 0 writes the health records and the map to the retained region (R51 step 3), with what the monitors of every Pod have measured
until then. An AGE that was never measured is a free value. Until step 3 of a start has restored them, the dies hold no records, and the region
keeps its own (DEDUCED, log 36). -/
def State.retain (s : State) : State :=
  if (s.die 0).boot.step ≤ 3 then s
  else
  let s := (List.range 1024).foldl (init := s) fun s i => s.measurePod (i / 256) (i % 256)
  let recs := (List.range 1024).map fun i =>
    let p := s.pod (i / 256) (i % 256)
    (i, p.cause, p.strh, p.age.getD (BitVec.ofNat 16 (Config.freeNat (s.free + i))))
  { s with retained := { s.retained with map := some s.retirementMap, records := recs }, free := s.free + 1024 }

/-- RSTREQ_WARM (R51). -/
def execRstreqWarm (s : State) : Out := .next (s.retain.beginStart true true)

/-- RSTREQ_COLD (R51). -/
def execRstreqCold (s : State) : Out := .next (s.retain.beginStart false true)

/-- COLD_START (R51): power-on or PERST#. -/
def execColdStart (s : State) : Out := .next (s.beginStart false false)

/-- HOT_RESET (R51): the dies are not started again. -/
def execHotReset (s : State) : Out := .next s

/-- The health record of a Pod at step 3 (R27): restored where its digest is good. -/
def restoredPod (recs : List (Nat × BitVec 4 × BitVec 20 × BitVec 16)) (bad : Bool) (i : Nat) : Pod :=
  match (if bad then none else recs.find? fun e => e.1 = i) with
  | some (_, _, strh, age) => { Pod.fresh with strh := strh, age := some age, valid := true }
  | none => Pod.fresh

/-- Does the retained region record cause 3 for a Pod (R27): in the map or in its record, where the digest is good? -/
def recordsMargin (s : State) (mapGood bad : Bool) (d p : Nat) : Bool :=
  (mapGood && (s.retained.map.getD []).any fun e => e.1 = d && e.2.1 = p && e.2.2 = 3)
    || (!bad && s.retained.records.any fun e => e.1 = 256 * d + p && e.2.1 = 3)

/-- RET and CAUSE of a Pod at step 3 (R27). -/
def startPod (s : State) (r : StartReport) (warm : Bool) (d p : Nat) : Pod :=
  let bad : Bool := r.badRecords.contains (d, p)
  let q := restoredPod s.retained.records bad (256 * d + p)
  let bist : Bool := r.bist.contains (d, p)
  let map := if r.mapGood then s.retained.map.getD [] else []
  let was := map.find? fun e => e.1 = d && e.2.1 = p
  if warm then
    match was with
    | some e => { q with retired := true, cause := e.2.2 }
    | none => if !q.valid && bist then { q with retired := true, cause := 1 } else q
  else if recordsMargin s r.mapGood bad d p then { q with retired := true, cause := 3 }
  else if bist then { q with retired := true, cause := 1 } else q

/-- Step 3 (R27): the retirement map; a die with a cluster without live Pods halts. -/
def State.startPods (s : State) (r : StartReport) : State :=
  let warm : Bool := s.warm && r.mapGood && s.retained.map.isSome
  let s := ({ s with warm := warm } : State).onBoots fun b => { b with warm := warm }
  (List.range 4).foldl (init := s) fun s d =>
    let pods := (List.range 256).foldl (init := []) fun t p => Table.set Pod.fresh t p (startPod s r warm d p)
    let s := s.onDie d fun x => { x with pods := pods }
    match (List.range 16).find? fun c => s.livePods d c = [] with
    | some c => s.onDie d fun x => { x with boot := { x.boot with fail := 3, detail := c } }
    | none => s

/-- Both ends of every link between dies have their lanes. -/
def State.onAllLinks (s : State) : State :=
  (List.range 6).foldl (init := s) fun s n => s.onLinkEnds n fun p => { p with lanes := 2, trained := true }

/-- Step 5 (R27, R40): the links are up, the ports that trained have their lanes. -/
def State.startLinks (s : State) (r : StartReport) : State :=
  let up (d : Nat) : BitVec 4 := 0xF &&& ~~~((1 : BitVec 4) <<< d)
  let s := (List.range 4).foldl (init := ({ s with links := [], retained := { s.retained with params := true } } : State)) fun s d =>
    s.onDie d fun x => { x with
      up := up d
      ports := (r.ports.filter fun p => p.1 = d && p.2.1 < 36 && p.2.2 ≠ 0).foldl (init := []) fun (t : Table Port) p =>
        Table.set Port.fresh t p.2.1 { Port.fresh with lanes := min 2 p.2.2, trained := true } }
  s.onAllLinks

/-- Step 6 (R27, R56, R58): the scrub, which clears soft errors, slot 0's key, the frames of the runtime. -/
def State.startMemory (s : State) (r : StartReport) : State :=
  let n := s.free
  { s with
    free := n + 2
    store := { Store.reset with
      poison := s.store.poison, soft := []
      keys := Table.set KeySlot.empty [] 0 (.loaded (Config.freeNat n % 2 ^ 256) (Config.freeNat (n + 1) % 2 ^ 256))
      owners := (r.runtimeFrames.filter (· < 2 ^ 23)).foldl (init := []) fun o f => Table.set freeOwner o f 0 } }

/-- Step 7 (R17, R22, R27): the first sample of every sensor, and of the margin monitors of every Pod, whose VALID is set. A reading that the report does not give is a
free value. -/
def State.startHealth (s : State) (r : StartReport) : State :=
  let s := (List.range 1056).foldl (init := s) fun s i =>
    let d := i / 264
    match r.temps.find? fun t => t.1 = d && t.2.1 = i % 264 with
    | some t => s.sample d (i % 264) t.2.2
    | none => let (n, s) := s.fresh; s.sample d (i % 264) (BitVec.ofNat 12 n)
  (List.range 1024).foldl (init := s) fun s i =>
    let (n, s) := s.fresh
    s.onPod (i / 256) (i % 256) fun p => { p with valid := true, age := some (BitVec.ofNat 16 n) }

/-- What a step of R27 does when it is done. -/
def State.startWork (s : State) (r : StartReport) (k : Nat) : State :=
  match k with
  | 3 => s.startPods r
  | 5 => s.startLinks r
  | 6 => s.startMemory r
  | 7 => s.startHealth r
  | _ => s

/-- STARTUP_STEP (R27, R28): all dies have done the step in progress and go on to the next, or halt. From 0 the first step
begins. -/
def execStartupStep (r : StartReport) (s : State) : Out :=
  let k := (s.die 0).boot.step
  if s.halted ∨ k ≥ 8 then .next s
  else if k = 0 then
    .next (({ s with retained := { s.retained with starts := s.retained.starts + 1 } } : State).onBoots fun b => { b with step := 1, warm := s.warm })
  else if !r.good ∧ k ≠ 3 then .next (s.halt k (if k = 4 then r.detail % 8 else if k = 5 then r.detail % 6 else 0))
  else
    let s := s.startWork r k
    .next (if s.halted then s else s.onBoots fun b => { b with step := k + 1 })

end Sys2Proof.Machine
end

