-- ==== Sys2Proof/Machine/HostEvents.lean ====
section
/-! DEFINITION. The host port: the three windows (R46, R47, R49-R53), host memory (R48), MSI-X (R55). -/

namespace Sys2Proof.Machine

/-! ### What the port answers and logs (R47, R50) -/

/-- Are the device memory window and the token page closed (R29, R47, R51)? -/
def State.hostClosed (s : State) : Bool := (s.die 0).boot.step ≠ 8 || s.halted

/-- Log an error: CODE, VALID, OVF, OFFSET (R50). -/
def State.logHost (s : State) (code off : Nat) : State :=
  s.onPort fun q =>
    let ovf := q.herr.getLsbD 4 || q.herr.getLsbD 5
    { q with herr := BitVec.ofNat 64 (code % 16 + 16 + (if ovf then 32 else 0) + bitsOf off 45 8 * 2 ^ 8) }

/-- The port sends something. -/
def State.portSends (s : State) (x : Sent) : State := s.onPort fun q => { q with sent := q.sent ++ [x] }

/-- Completer Abort, logged (R47). -/
def State.abortLogged (s : State) (code off : Nat) : State := (s.logHost code off).portSends .abort

/-- The context of the host's accesses (R50, R65). -/
def hostCx (key : Nat) : Ctx := { engineCtx 0 key 0 with who := 2 ^ 43, cls := 3, req := ⟨99, 0, 0, 0⟩ }

/-- All ones. -/
def ones (n : Nat) : List Byte := List.replicate n 0xFF

/-! ### The device memory window (R50, R56, R58) -/

/-- The key slot of a window offset, where its entry is enabled (R50). -/
def State.haptKey (s : State) (off : Nat) : Option Nat :=
  let e := Table.get 0 s.port.hapt (off / 2 ^ 30)
  if e.getLsbD 8 then some (e.toNat % 256) else none

/-- The parts of a request: each in one granule and one frame (R50). -/
def hostParts (off n : Nat) : List (Nat × Nat) :=
  (List.range (n / 0x10000 + 2)).filterMap fun k =>
    let lo := max off ((off / 0x10000 + k) * 0x10000)
    let hi := min (off + n) ((off / 0x10000 + k + 1) * 0x10000)
    if lo < hi then some (lo, hi - lo) else none

/-- The key slot under which a part is performed, or none where it is refused (R50, R56, R58). -/
def State.partKey (s : State) (off : Nat) (write : Bool) : Option Nat :=
  match s.haptKey off with
  | none => none
  | some k => if s.store.guard k off write = .refused then none else some k

/-- The lowest refused part is logged, once (R50). -/
def State.logRefused (s : State) (parts : List (Nat × Nat)) (write : Bool) : State :=
  match parts.find? fun p => (s.partKey p.1 write).isNone with
  | some p => s.logHost 2 p.1
  | none => s

/-- The bytes of a part from `off` on: those of a line with uncorrectable data are free values (R47). -/
def partBytes (s : State) (off : Nat) : Nat → List Byte × State
  | 0 => ([], s)
  | n + 1 =>
    if s.store.poisoned off 1 then
      let (v, s) := s.fresh
      let r := partBytes s (off + 1) n
      (BitVec.ofNat 8 v :: r.1, r.2)
    else
      let r := partBytes s (off + 1) n
      (s.store.bytes.read off :: r.1, r.2)

/-- A part of a read: its bytes, and whether it met uncorrectable data. A free frame gives zeros (R58). -/
def State.readPart (s : State) (p : Nat × Nat) : (List Byte × Bool) × State :=
  match s.partKey p.1 false with
  | none => ((ones p.2, false), s)
  | some _ =>
    if s.store.ownerOf p.1 = freeOwner then ((List.replicate p.2 0, false), s.audit 3 false p.1 p.2)
    else
      let bad := s.store.poisoned p.1 p.2
      let (bytes, s) := partBytes s p.1 p.2
      ((bytes, bad), s.audit 3 false p.1 p.2)

/-- The parts of a read, in order. -/
def readParts (s : State) : List (Nat × Nat) → (List Byte × Bool) × State
  | [] => (([], false), s)
  | p :: ps =>
    let (a, s) := s.readPart p
    let (b, s) := readParts s ps
    ((a.1 ++ b.1, a.2 || b.2), s)

/-- HOST_MEMORY_READ (R47, R50, R54). -/
def execHostMemoryRead (off n : Nat) (s : State) : Out :=
  if off + n > 0x8000000000 then .next s
  else if s.hostClosed then .next (s.abortLogged 4 off)
  else
    let parts := hostParts off n
    let (r, t) := readParts s parts
    .next ((t.logRefused parts false).portSends (.completion r.1 r.2))

/-- The part of a write is performed or dropped. -/
def State.writePart (s : State) (p : Nat × Nat) (bytes : List Byte) : State :=
  match s.partKey p.1 true with
  | none => s
  | some k => s.performWrite (hostCx k) (physSpot k p.1) p.2 (ofBytes bytes) .plain

/-- The parts of a write, in order. -/
def writeParts (s : State) (off : Nat) (bytes : List Byte) : List (Nat × Nat) → State
  | [] => s
  | p :: ps => writeParts (s.writePart p ((bytes.drop (p.1 - off)).take p.2)) off bytes ps

/-- A request of the host waits (R54, R361). -/
def State.holdHost (s : State) (i : HostWait) : State := s.onPort fun q => { q with held := q.held ++ [i] }

/-- HOST_MEMORY_WRITE (R47, R50, R54); it waits while the lock of R361 holds one of its lines. -/
def execHostMemoryWrite (off : Nat) (bytes : List Byte) (s : State) : Out :=
  let n := bytes.length
  if off + n > 0x8000000000 then .next s
  else if s.hostClosed then .next (s.logHost 4 off)
  else
    let parts := hostParts off n
    if (List.range (n / 64 + 2)).any fun k => 64 * k < n + off % 64 && s.locked (hostCx 0) (off + 64 * k) then
      .next (s.holdHost (.write off bytes))
    else .next (writeParts (s.logRefused parts true) off bytes parts)

/-! ### The token page (R52, R53) -/

/-- The physical address of a token word (R52). -/
def State.tokenAddr (s : State) (off : Nat) : Nat := bitsOf s.port.tokbase.toNat 55 16 * 2 ^ 16 + off

/-- May slot 0 reach a token word: in this package, in HBM, in a frame that the guard opens (R50)? -/
def State.tokenOpen (s : State) (off : Nat) (write : Bool) : Bool :=
  let a := s.tokenAddr off
  a / 2 ^ 44 = s.pkgid.toNat && spaceOf (a % 2 ^ 44) = .hbm && s.store.guard 0 (a % 2 ^ 44) write ≠ .refused

/-- The word of the token page as the host reads it: its bytes, and whether they are uncorrectable. -/
def State.tokenWord (s : State) (off : Nat) : (List Byte × Bool) × State :=
  let a := s.tokenAddr off % 2 ^ 44
  if s.store.poisoned a 8 then
    let (b, s) := s.freeBytes 8
    ((b, true), s)
  else ((toBytes 8 (s.peek (physSpot 0 a) 8), false), s)

/-- HOST_FETCHADD (R53): the completion returns the word as it stands before the step. It waits while the lock of R361 holds a line that
the step writes. -/
def execHostFetchadd (off : Nat) (a : Word) (s : State) : Out :=
  if off ≥ 0x10000 then .next s
  else if s.hostClosed then .next (s.abortLogged 4 off)
  else if !s.port.tokbase.getLsbD 0 || off % 8 ≠ 0 || a.toInt > -1 || a.toInt < -65535 then .next (s.abortLogged 5 off)
  else if !s.tokenOpen off true then .next ((s.logHost 2 off).portSends (.completion (ones 8) false))
  else
    let (r, t) := s.tokenWord off
    if r.2 then .next (t.portSends (.completion r.1 r.2))
    else match t.tokenStep 0 (t.tokenAddr off % 2 ^ 44) (-a.toInt).toNat with
      | .ok _ u | .trap _ _ u => .next (u.portSends (.completion r.1 r.2))
      | .stall _ _ => .next (s.holdHost (.fetchadd off a))

/-- A read of 8 bytes of the token page (R47). -/
def State.tokenRead (s : State) (off : Nat) : State :=
  if !s.tokenOpen off false then (s.logHost 2 off).portSends (.completion (ones 8) false)
  else
    let (r, s) := s.tokenWord off
    s.portSends (.completion r.1 r.2)

/-! ### The configuration and management window (R47, R49, R50, R60) -/

/-- MBSTAT (R60). -/
def Port0.mbstat (q : Port0) : Nat :=
  (if q.busy then 1 else 0) + (if q.ovr then 2 else 0) + q.mbresult.1 % 256 * 2 ^ 8 + q.mbresult.2 % 65536 * 2 ^ 16

/-- Two words of the MSI-X table, the mask bits as the host sees them (R55, log 25). -/
def Port0.msixWord (q : Port0) (o : Nat) : Nat :=
  let v := q.msix.readN o 8
  if o % 16 = 8 then v ^^^ 2 ^ 32 else v

/-- 64 pending bits (R55). -/
def Port0.pbaWord (q : Port0) (o : Nat) : Nat :=
  (List.range 64).foldl (init := 0) fun a i => if Table.get false q.pba (8 * o + i) then a + 2 ^ i else a

/-- The register at an offset that is a multiple of 8 (R49, R50); an offset that the map does not name reads 0 (R47). -/
def State.configWord (s : State) (o : Nat) : Nat :=
  let q := s.port
  if o = 0 then Config.deviceId.toNat + Config.stepping.toNat * 2 ^ 16
  else if o = 0x08 then Config.devFeat.toNat
  else if o = 0x10 then q.featmask.toNat
  else if o = 0x18 then 0x100
  else if o = 0x20 then q.time.toNat
  else if o = 0x28 then q.tokbase.toNat
  else if o = 0x30 then q.hwbase.toNat
  else if o = 0x38 then q.herr.toNat
  else if 0x40 ≤ o ∧ o < 0x60 then (s.die ((o - 0x40) / 8)).boot.word
  else if o = 0x1000 then q.mbcmd.toNat
  else if o = 0x1008 then q.mbstat
  else if 0x2000 ≤ o ∧ o < 0x3000 then q.mbdata.readN (o - 0x2000) 8
  else if 0x10000 ≤ o ∧ o < 0x11000 then (Table.get 0 q.hapt ((o - 0x10000) / 8)).toNat
  else if 0x20000 ≤ o ∧ o < 0x28000 then q.msixWord (o - 0x20000)
  else if 0x28000 ≤ o ∧ o < 0x28100 then q.pbaWord (o - 0x28000)
  else 0

/-- Is a request to the configuration window 4 or 8 bytes, naturally aligned (R47)? -/
def configSize (off n : Nat) : Bool := (n = 4 || n = 8) && off % n = 0

/-- The bits of an 8-byte register that a write of `n` bytes covers. -/
def coverMask (off n : Nat) : Word := BitVec.ofNat 64 ((2 ^ (8 * n) - 1) * 2 ^ (8 * (off % 8)))

/-- What a write leaves in a register: `rw` are the bits it may write, `w1c` those that writing 1 clears. -/
def mergeWrite (old v cover rw w1c : Word) : Word :=
  (old &&& ~~~(cover &&& rw) &&& ~~~(cover &&& w1c &&& v)) ||| (v &&& cover &&& rw)

/-- Send the pending message of a vector that is no longer masked (R55). -/
def Port0.release (q : Port0) (v : Nat) : Port0 :=
  if Table.get false q.pba v && !q.masked v then
    { q with pba := Table.set false q.pba v false
             sent := q.sent ++ [.message (q.msix.readN (16 * v) 8) (q.msix.readN (16 * v + 8) 4)] }
  else q

/-- Write 4 bytes of the MSI-X table (R55, log 25): of the vector control, bit 0 alone. -/
def Port0.writeMsix (q : Port0) (o v : Nat) : Port0 :=
  if o % 16 = 12 then ({ q with msix := q.msix.writeN o 4 (1 - v % 2) } : Port0).release (o / 16)
  else { q with msix := q.msix.writeN o 4 v }

/-- The write of MBCMD (R60). -/
def Port0.command (q : Port0) (v : Nat) : Port0 :=
  if q.busy then { q with ovr := true } else { q with mbcmd := BitVec.ofNat 8 v, busy := true, mbdone := false }

/-- A write to the configuration window, `v` moved to its bytes of the 8-byte register (R49-R51, R60). -/
def configWrite (off n : Nat) (x : Word) (s : State) : Out :=
  let o := off / 8 * 8
  let v : Word := x <<< (8 * (off % 8))
  let k := coverMask off n
  let put (old rw w1c : Word) : Word := mergeWrite old v k rw w1c
  let port (f : Port0 → Port0) : Out := .next (s.onPort f)
  if o = 0x10 then port fun q => { q with featmask := ((put (q.featmask.setWidth 64) 0x3F 0).setWidth 6) }
  else if o = 0x20 then port fun q => { q with time := put q.time (BitVec.allOnes 64) 0 }
  else if o = 0x28 then port fun q => { q with tokbase := put q.tokbase 0x00FFFFFFFFFF0001 0 }
  else if o = 0x30 then port fun q => { q with hwbase := put q.hwbase 0xFFFFFFFFFFFFF001 0 }
  else if o = 0x38 then port fun q => { q with herr := put q.herr 0 0x30 }
  else if o = 0x60 then
    if n = 8 ∧ bitsOf v.toNat 63 48 = 0x5A4D ∧ v.toNat % 4 = 1 then execRstreqWarm s
    else if n = 8 ∧ bitsOf v.toNat 63 48 = 0x5A4D ∧ v.toNat % 4 = 2 then execRstreqCold s
    else .next s
  else if off = 0x1000 then port fun q => q.command v.toNat
  else if o = 0x1008 then port fun q => { q with ovr := q.ovr && !(v &&& k).getLsbD 1 }
  else if 0x2000 ≤ o ∧ o < 0x3000 then
    port fun q => if q.busy then q else { q with mbdata := q.mbdata.writeN (off - 0x2000) n x.toNat }
  else if 0x10000 ≤ o ∧ o < 0x11000 then
    port fun q =>
      let i := (o - 0x10000) / 8
      { q with hapt := Table.set 0 q.hapt i ((put ((Table.get 0 q.hapt i).setWidth 64) 0x1FF 0).setWidth 9) }
  else if 0x20000 ≤ o ∧ o < 0x28000 then
    port fun q =>
      let q := q.writeMsix (off - 0x20000) (x.toNat % 2 ^ 32)
      if n = 8 then q.writeMsix (off - 0x20000 + 4) (x.toNat / 2 ^ 32) else q
  else .next s

/-- HOST_CONFIG_WRITE (R47, R49, R50, R60, R71). -/
def execHostConfigWrite (off n : Nat) (v : Word) (s : State) : Out :=
  if off ≥ 0x4000000 then .next s
  else if !configSize off n then .next (s.logHost 1 off)
  else configWrite off n v s

/-- The mask of the function clears: what is pending and not masked is sent (R55). -/
def Port0.unmaskFunction (q : Port0) : Port0 := (q.pba.map (·.1)).foldl (init := { q with fmask := false }) Port0.release

/-- The identity that the port presents (R45): Vendor ID, Device ID, class code. -/
def identityBytes : List Byte :=
  toBytes 2 Config.vendorId.toNat ++ toBytes 2 Config.deviceId.toNat ++ toBytes 2 Config.classCode.toNat

/-- HOST_REFUSED_REQUEST (R47, R53): a request that the tables refuse has its fate; a read that they do not refuse is
answered; a write or FetchAdd that they do not refuse stands in a row of its own. The host also reads the function's identity (R45) and
sets and clears the mask of the function (R55) here (log 25). -/
def execHostRefusedRequest (r : HostRequest) (s : State) : Out :=
  match r with
  | .configRead off n =>
    if off ≥ 0x4000000 then .next s
    else if configSize off n then
      .next (s.portSends (.completion (((toBytes 8 (s.configWord (off / 8 * 8))).drop (off % 8)).take n) false))
    else .next (s.portSends .abort)
  | .configWrite off n => .next (if off < 0x4000000 ∧ !configSize off n then s.logHost 1 off else s)
  | .configAtomic off => .next (if off < 0x4000000 then s.abortLogged 5 off else s)
  | .memoryRead off n => execHostMemoryRead off n s
  | .memoryWrite off _ => .next (if off < 0x8000000000 ∧ s.hostClosed then s.logHost 4 off else s)
  | .memoryAtomic off => .next (if off < 0x8000000000 then s.abortLogged (if s.hostClosed then 4 else 5) off else s)
  | .tokenRead off n =>
    if off ≥ 0x10000 then .next s
    else if s.hostClosed then .next (s.abortLogged 4 off)
    else if n = 8 ∧ off % 8 = 0 then .next (s.tokenRead off)
    else .next (s.portSends .abort)
  | .tokenWrite off _ => .next (if off < 0x10000 then s.logHost (if s.hostClosed then 4 else 3) off else s)
  | .tokenAtomic off n add =>
    if off ≥ 0x10000 then .next s
    else if s.hostClosed then .next (s.abortLogged 4 off)
    else if add ∧ n = 8 ∧ off % 8 = 0 then .next s
    else .next (s.abortLogged 5 off)
  | .identity => .next (s.portSends (.completion identityBytes false))
  | .functionMask on => .next (s.onPort fun q => if on then { q with fmask := true } else q.unmaskFunction)

/-! ### Host memory (R48) -/

/-- Answer a request of the device. -/
def Port0.answer (q : Port0) (r : HostRead) (v : Option Nat) : Port0 :=
  { q with requests := q.requests.erase r, answers := q.answers ++ [⟨r.who, r.loc, r.n, v⟩] }

/-- HOST_COMPLETION (R48): the completion of the oldest request; none stands for UR, CA or poisoned data. -/
def execHostCompletion (data : Option (List Byte)) (s : State) : Out :=
  match s.port.requests with
  | [] => .next s
  | r :: _ => match data with
    | none => .next (s.onPort fun q => q.answer r none)
    | some bytes => .next (if bytes.length = r.n then s.onPort fun q => q.answer r (some (ofBytes bytes)) else s)

/-- HOST_REQUEST_TIMEOUT (R48): a request that has waited 1 ms fails. -/
def execHostRequestTimeout (s : State) : Out :=
  match s.port.requests.find? fun r => r.cycle + 2400000 ≤ s.cycle with
  | some r => .next (s.onPort fun q => q.answer r none)
  | none => .next s

/-! ### MSI-X (R55) -/

/-- MSIX_UNMASK (R55): the mask of an entry, or of the function, clears. -/
def execMsixUnmask (vector : Option Nat) (s : State) : Out :=
  match vector with
  | some v => .next (if v < 2048 then s.onPort fun q => q.writeMsix (16 * v + 12) 0 else s)
  | none => .next (s.onPort Port0.unmaskFunction)

end Sys2Proof.Machine
end

