-- ==== Sys2Proof/Machine/Audit.lean ====
section
/-! DEFINITION. Audit ranges and logs (R65-R68). -/

namespace Sys2Proof.Machine

/-- The identity public key (R69). -/
def devPub : List Byte := edPublic Config.identitySecret

/-- An Ed25519 signature by the identity key of the SHA-512 of bytes (R63, R66, R69, R70). -/
def signDigest (bs : List Byte) : List Byte := edSign Config.identitySecret (sha512 bs)

/-! ### Physical accesses of the firmware -/

/-- The context of what a die's firmware reads and writes for the mailbox and the logs, under slot 0; no class of R65 counts it. -/
def firmwareCx (die : Nat) : Ctx := { engineCtx die 0 0 with who := 2 ^ 44 + die, cls := 5 }

/-- Write bytes at a physical address, in words of 8 bytes; a refused word is dropped (log 20). -/
def physWrite (s : State) (cx : Ctx) (a : Nat) : Nat → List Byte → State
  | 0, _ => s
  | n + 1, bs =>
    if bs = [] then s
    else
      let s' := match writeSpot s cx 0 (physSpot 0 a) (min 8 bs.length) (ofBytes (bs.take 8)) .plain with
        | .ok _ s => s | .trap _ _ s => s | .stall _ s => s
      physWrite s' cx (a + 8) n (bs.drop 8)

/-- Write bytes at a physical address. -/
def State.writePhys (s : State) (die a : Nat) (bs : List Byte) : State := physWrite s (firmwareCx die) a (bs.length / 8 + 1) bs

/-- Must the firmware of a die wait with a write of `n` bytes: for the lock of R361, or for a link that holds its traffic (R32, R36)? -/
def State.firmwareHeld (s : State) (die a n : Nat) : Bool :=
  s.lockedFor (firmwareCx die).who (a % 2 ^ 44) n || s.linkHeld die (a % 2 ^ 44)

/-- Is a physical address one of this package, in HBM, chip scratchpad or host memory, and aligned? -/
def State.physOk (s : State) (a align : Nat) : Bool :=
  a % align = 0 && a / 2 ^ 44 = s.pkgid.toNat && spaceOf (a % 2 ^ 44) ≠ .reserved

/-! ### Records (R66, R67) -/

/-- Change the log of a die. -/
def State.onLog (s : State) (d : Nat) (f : AuditLog → AuditLog) : State := s.onDie d fun x => { x with log := x.log.map f }

/-- A record of 256 bytes (R66). -/
def auditRecord (l : AuditLog) (die kind index owner : Nat) (body : List Byte) : List Byte :=
  toBytes 8 l.seq ++ toBytes 2 kind ++ toBytes 2 index ++ toBytes 1 owner ++ toBytes 1 die ++ toBytes 2 0
    ++ (if l.seq = 0 then List.replicate 64 0 else sha512 l.prev) ++ fit 176 body

/-- A checkpoint (R66, R67): the records since the last one, the key, the signature of bytes 0 to 127. -/
def checkpointRecord (l : AuditLog) (die : Nat) (time : Word) : List Byte :=
  let head := toBytes 8 time.toNat ++ toBytes 8 (l.seq - l.mark) ++ devPub
  auditRecord l die 1 0 0 (head ++ signDigest ((auditRecord l die 1 0 0 head).take 128))

/-- Bytes 80 to 191 of the record of a range (R66). -/
def AuditRange.body (r : AuditRange) : List Byte :=
  toBytes 8 r.first.toNat ++ toBytes 8 r.last.toNat ++ r.counts.toList.flatMap (fun c => toBytes 8 c.toNat)
    ++ toBytes 8 r.base ++ toBytes 8 r.limit

/-- Where the next record of a log goes (R68). -/
def AuditLog.place (l : AuditLog) : Nat := l.ring + 256 * (l.seq % l.len)

/-- The record goes to its place in the ring (R68). -/
def State.putRecord (s : State) (d : Nat) (rec : List Byte) : State :=
  match (s.die d).log with
  | none => s
  | some l =>
    (s.writePhys d l.place rec).onLog d fun l => { l with seq := l.seq + 1, prev := rec }

/-- KIND 0 records since the last checkpoint (R67). -/
def AuditLog.ranges (l : AuditLog) : Nat := l.seq - l.mark - (if l.mark = 0 then 1 else 0)

/-- Write a checkpoint (R67). -/
def State.putCheckpoint (s : State) (d : Nat) : State :=
  match (s.die d).log with
  | none => s
  | some l => (s.putRecord d (checkpointRecord l d s.port.time)).onLog d fun l => { l with mark := l.seq }

/-- Is there room (R68)? The consumer word is read under slot 0, in host memory once the host has answered; one that cannot be read
leaves no room (log 20). A record whose line is locked waits (R361). -/
def State.logRoom (s : State) (d : Nat) : Res Bool :=
  match (s.die d).log with
  | none => .ok false s
  | some l =>
    if s.firmwareHeld d l.place 256 then .stall .lock s
    else match readSpot s (firmwareCx d) 0 (physSpot 0 l.consumer) 8 .plain with
    | .ok c s => .ok ((l.seq + 2 ^ 64 - c % 2 ^ 64) % 2 ^ 64 ≠ l.len) s
    | .trap _ _ s => .ok false s
    | .stall w s => .stall w s

/-- The host's answers for a log are used up. -/
def State.logRead (s : State) (d : Nat) : State := s.clearAnswers (firmwareCx d).who

/-- Write what waits, in order, while there is room; a checkpoint follows every 4,096th KIND 0 record (R67, R68). -/
def drainLog (s : State) (d : Nat) : Nat → State
  | 0 => s.logRead d
  | fuel + 1 => match (s.die d).log with
    | none => s
    | some l => match l.pending with
      | [] => s.logRead d
      | p :: rest =>
        match s.logRoom d with
        | .stall _ s => s
        | .trap _ _ s | .ok false s => s.logRead d
        | .ok true s =>
          let s := s.onLog d fun l => { l with pending := rest }
          match p with
          | .checkpoint => drainLog (s.putCheckpoint d) d fuel
          | .range i owner body _ =>
            let s := s.putRecord d (auditRecord l d 0 i owner body)
            let due : Bool := (match (s.die d).log with | some l => l.ranges % 4096 = 0 | none => false)
            drainLog (if due then s.onLog d fun l => { l with pending := .checkpoint :: l.pending } else s) d fuel

/-- Write what waits in the log of a die. -/
def State.drain (s : State) (d : Nat) : State :=
  match (s.die d).log with
  | some l => drainLog s d (2 * l.pending.length + 2)
  | none => s

/-- The range whose record waits. -/
def AuditPending.isRange (i : Nat) : AuditPending → Bool
  | .range j _ _ _ => i = j
  | .checkpoint => false

/-- Is the range's final record waiting (R68)? -/
def AuditPending.isFinal (i : Nat) : AuditPending → Bool
  | .range j _ _ f => i = j && f
  | .checkpoint => false

/-- A record takes its range's place, or stands last (R68). -/
def placePending (i : Nat) (p : AuditPending) (l : List AuditPending) : List AuditPending :=
  if l.any (AuditPending.isRange i) then l.map fun q => if q.isRange i then p else q else l ++ [p]

/-- A range emits a record; what finds no room waits (R66, R68). -/
def State.emitRange (s : State) (i : Nat) (r : AuditRange) (final : Bool) : State :=
  (s.onLog (i / 256) fun l => { l with pending := placePending i (.range i r.owner.toNat r.body final) l.pending }).drain (i / 256)

/-- A checkpoint is written, or waits (R67, R68). -/
def State.emitCheckpoint (s : State) (d : Nat) : State :=
  (s.onLog d fun l => { l with pending := l.pending ++ [.checkpoint] }).drain d

/-- A range before its first AUDSET (R65). -/
def AuditRange.off : AuditRange := ⟨0, false, 0, 0, Vector.replicate 10 0, 0, 0, false⟩

/-- A range. -/
def State.range (s : State) (i : Nat) : AuditRange := Table.get AuditRange.off s.store.ranges i

/-- Set a range. -/
def State.setRange (s : State) (i : Nat) (r : AuditRange) : State :=
  s.onStore fun st => { st with ranges := Table.set AuditRange.off st.ranges i r }

/-- The ranges of a die that have something to tell emit a record (R66). -/
def emitChanged (s : State) : List Nat → State
  | [] => s
  | i :: is =>
    let r := s.range i
    emitChanged (if r.enable && r.changed then (s.setRange i { r with changed := false }).emitRange i r false else s) is

/-- AUDIT_INTERVAL (R66, R68): an interval of a die's log has ended. -/
def execAuditInterval (die : Nat) (s : State) : Out :=
  match (s.die die).log with
  | none => .next s
  | some l =>
    if s.cycle < l.due then .next s
    else
      let s := s.onLog die fun l => { l with due := l.due + l.interval * 2400 }
      .next (emitChanged s ((List.range 256).map (· + die % 4 * 256)))

/-- AUDIT_PENDING_WRITE (R68). -/
def execAuditPendingWrite (die : Nat) (s : State) : Out := .next (s.drain die)

end Sys2Proof.Machine
end

