-- ==== Sys2Proof/Machine/Branch.lean ====
section
/-! DEFINITION. Branches and jumps (R310-R312). -/

namespace Sys2Proof.Machine

/-- The target of a branch: `pc + 4 × sext(OFF, w)` (R310, R311). -/
def targetOf (pc : Word) (off w : Nat) : Word := pc + wordOf (4 * sextOf off w)

/-- A conditional branch (R310). -/
def State.branch (s : State) (taken : Bool) (o : BitVec 16) : State :=
  if taken then s.goto (targetOf s.pc o.toNat 16) else s.advance

/-- BEQ (R310). -/
def execBeq (a b : Gpr) (o : BitVec 16) (s : State) : Out := .next (s.branch (s.g a = s.g b) o)

/-- BNE (R310). -/
def execBne (a b : Gpr) (o : BitVec 16) (s : State) : Out := .next (s.branch (s.g a ≠ s.g b) o)

/-- BLT (R310). -/
def execBlt (a b : Gpr) (o : BitVec 16) (s : State) : Out := .next (s.branch ((s.g a).toInt < (s.g b).toInt) o)

/-- BGE (R310). -/
def execBge (a b : Gpr) (o : BitVec 16) (s : State) : Out := .next (s.branch ((s.g b).toInt ≤ (s.g a).toInt) o)

/-- BLTU (R310). -/
def execBltu (a b : Gpr) (o : BitVec 16) (s : State) : Out := .next (s.branch ((s.g a).toNat < (s.g b).toNat) o)

/-- BGEU (R310). -/
def execBgeu (a b : Gpr) (o : BitVec 16) (s : State) : Out := .next (s.branch ((s.g b).toNat ≤ (s.g a).toNat) o)

/-- J (R311). -/
def execJ (d : Gpr) (o : BitVec 21) (s : State) : Out :=
  .next ((s.setG d (s.pc + 4)).goto (targetOf s.pc o.toNat 21))

/-- JR (R311): a target not aligned to 4 takes Misaligned and writes nothing. -/
def execJr (d a : Gpr) (i : BitVec 16) (s : State) : Out :=
  let t := s.g a + immS i
  if t.toNat % 4 ≠ 0 then .next (s.scalarTrap 0x04 t)
  else .next ((s.setG d (s.pc + 4)).goto t)

end Sys2Proof.Machine
end

