-- ==== Sys2Proof/Machine/LoadStore.lean ====
section
/-! DEFINITION. Scalar loads, stores, atomics and FENCE (R313-R318). -/

namespace Sys2Proof.Machine

/-- The address of a load or store (R313). -/
def State.addr (s : State) (a : Gpr) (i : BitVec 10) (w : BitVec 2) : Word :=
  s.g a + wordOf (sextOf i.toNat 10 * 2 ^ w.toNat)

/-- The load of R313 up to its value. -/
def State.load (s : State) (a : Gpr) (w : BitVec 2) (o : BitVec 1) (scp : BitVec 3) (i : BitVec 10) : Res Nat :=
  let va := s.addr a i w
  let n := 2 ^ w.toNat
  if va.toNat % n ≠ 0 then .trap 0x04 va s
  else readMem s s.cur.cx va n ⟨o = 1, false, scp.toNat, false⟩

/-- LD (R313, R314). -/
def execLd (d a : Gpr) (w : BitVec 2) (o : BitVec 1) (c : BitVec 3) (i : BitVec 10) (s : State) : Out :=
  scalar (.ld d a w o c i) s fun s =>
    (s.load a w o c i).bind fun x s => .ok () (s.put d (wordOf (sextOf x (8 * 2 ^ w.toNat))))

/-- LDU (R313, R314). -/
def execLdu (d a : Gpr) (w : BitVec 2) (o : BitVec 1) (c : BitVec 3) (i : BitVec 10) (s : State) : Out :=
  scalar (.ldu d a w o c i) s fun s =>
    (s.load a w o c i).bind fun x s => .ok () (s.put d (BitVec.ofNat 64 x))

/-- ST (R313, R314). -/
def execSt (d a : Gpr) (w : BitVec 2) (o : BitVec 1) (c : BitVec 3) (i : BitVec 10) (s : State) : Out :=
  scalar (.st d a w o c i) s fun s =>
    let va := s.addr a i w
    let n := 2 ^ w.toNat
    if va.toNat % n ≠ 0 then .trap 0x04 va s
    else (writeMem s s.cur.cx va n (s.g d).toNat ⟨false, o = 1, c.toNat, false⟩).bind fun _ s => .ok () s.advance

/-- The new value of an AMO on `w`-bit values (R315): 0 ADD, 1 AND, 2 OR, 3 XOR, 4 MIN, 5 MAX, 6 MINU, 7 MAXU, 8 SWAP. -/
def amoNew (op w old b : Nat) : Nat :=
  match op with
  | 0 => (old + b) % 2 ^ w
  | 1 => old &&& b
  | 2 => old ||| b
  | 3 => old ^^^ b
  | 4 => if sextOf old w < sextOf b w then old else b
  | 5 => if sextOf old w < sextOf b w then b else old
  | 6 => if old < b then old else b
  | 7 => if old < b then b else old
  | _ => b

/-- The width in bytes of an atomic: 4 for .W, 8 for .D (R315). -/
def amoBytes (w : BitVec 1) : Nat := if w = 1 then 8 else 4

/-- AMO (R315, R317). -/
def execAmo (d a b : Gpr) (o : BitVec 2) (c : BitVec 3) (w : BitVec 1) (p : BitVec 4) (s : State) : Out :=
  scalar (.amo d a b o c w p) s fun s =>
    let va := s.g a
    let n := amoBytes w
    let x := (s.g b).toNat % 2 ^ (8 * n)
    if va.toNat % n ≠ 0 then .trap 0x04 va s
    else (updateMem s s.cur.cx va n (.of o.toNat c.toNat) fun old => some (amoNew p.toNat (8 * n) old x)).bind fun old s =>
      .ok () (s.put d (wordOf (sextOf old (8 * n))))

/-- CAS (R316, R317). -/
def execCas (d a b : Gpr) (o : BitVec 2) (c : BitVec 3) (w : BitVec 1) (s : State) : Out :=
  scalar (.cas d a b o c w) s fun s =>
    let va := s.g a
    let n := amoBytes w
    let want := (s.g d).toNat % 2 ^ (8 * n)
    let new := (s.g b).toNat % 2 ^ (8 * n)
    if va.toNat % n ≠ 0 then .trap 0x04 va s
    else (updateMem s s.cur.cx va n (Order.of o.toNat c.toNat).forCas fun old => if old = want then some new else none).bind fun old s =>
      .ok () (s.put d (wordOf (sextOf old (8 * n))))

/-- FENCE (R201, R318): it orders accesses that this model performs in order (log 5), so the next word follows. -/
def execFence (c : BitVec 3) (k : BitVec 4) (s : State) : Out :=
  scalar (.fence c k) s fun s => .ok () s.advance

end Sys2Proof.Machine
end

