-- ==== Sys2Proof/Machine/VectorMem.lean ====
section
/-! DEFINITION. Vector memory instructions (R352-R367): where their elements lie, the checks of R355, loads that trim,
stores that are buffered, linked updates, atomics and the timed wait, which end a strip. -/

namespace Sys2Proof.Machine

/-! ### Elements (R354) -/

/-- How a memory instruction reaches its elements: its fields, whether it is indexed, whether it takes only VIRT streams
and no host memory (R353, R355), the widths of data and indices, the stream, the lanes, the range. -/
structure VMem where
  f : VFields
  indexed : Bool
  virt : Bool
  w : Nat
  iw : Nat
  q : Stream
  lanes : Nat
  g : Range

/-- The index width of IXF (R352). -/
def ixWidth (ixf w : Nat) : Nat := match ixf with | 0 => w | 1 => 16 | 2 => 32 | _ => 64

/-- A memory instruction of the hart in focus. -/
def State.vmem (s : State) (f : VFields) (indexed virt : Bool) : VMem :=
  let w := (fmtOf f).width
  let iw := ixWidth f.ixf w
  { f := f, indexed := indexed, virt := virt, w := w, iw := iw, q := s.cur.stream f.qs.toNat, lanes := s.cur.lanes
    g := s.cur.range (if indexed then max w iw else w) }

/-- The checks of R353 against the stream. -/
def VMem.streamOk (m : VMem) : Bool :=
  m.q.active && eszWidth m.q.esz.toNat = m.w && !(m.virt && m.q.space = 1)

/-- An element that takes part: its number, its address, its lane (LANE), its nibble (ESZ 0). -/
structure Elem where
  e : Nat
  addr : Int
  lane : Option Nat
  high : Bool

/-- The address of an element as TVAL shows it (R355). -/
def Elem.va (x : Elem) : Word := wordOf x.addr

/-- Element `e`, if it takes part (R354). -/
def VMem.elem (m : VMem) (s : State) (e : Nat) : Option Elem :=
  if !s.act m.g m.f e then none
  else
    let p := if m.indexed then m.g.el (s.v m.f.b) m.iw e else m.q.idx.toNat + e
    if m.q.beyond p then none
    else if m.q.space = 0 then some ⟨e, (m.q.virt p).toNat, none, p % 2 = 1⟩
    else
      let at_ : Int × Nat :=
        if m.indexed then (m.q.base.toNat + (if m.q.esz = 0 then p / 2 else p : Nat) * m.q.s1.toInt, p)
        else m.q.lane m.lanes e
      some ⟨e, at_.1, some (s.cur.laneOf m.w e), at_.2 % 2 = 1⟩

/-- The elements that take part, in order. -/
def VMem.elems (m : VMem) (s : State) : List Elem := (List.range m.g.vl).filterMap (m.elem s)

/-- Checks 1 to 3 of R355. -/
def VMem.spot (m : VMem) (s : State) (cx : Ctx) (k : Kind) (x : Elem) : Res Spot :=
  if m.q.esz ≠ 0 ∧ x.addr % (m.q.bytes : Int) ≠ 0 then .trap 0x04 x.va s
  else match x.lane with
    | some _ => if 0 ≤ x.addr ∧ x.addr < 8192 then .ok ⟨x.addr.toNat, cx.key, 2⟩ s else .trap 0x06 x.va s
    | none => (resolve s cx k x.va).bind fun p s =>
      if m.virt && spaceOf p.loc = .host then .trap 0x06 x.va s else .ok p s

/-- The context of a vector access: the host's answers stay until the instruction is done. -/
def Hart.vectorCx (x : Hart) : Ctx := { x.cx with keep := true }

/-- Is it the page that element stands for in the list: the same page at the same place, touched in the same way? -/
def Touch.same (x : Touch) (va : Word) (loc : Nat) (wrote : Bool) : Bool :=
  x.va.toNat / 65536 = va.toNat / 65536 && x.loc / 65536 = loc / 65536 && x.wrote = wrote

/-- Note a page that element `e` touched (R174). -/
def Strip.touch (t : Strip) (e : Nat) (va : Word) (p : Spot) (wrote : Bool) : Strip :=
  if p.win ≠ 2 then t
  else if t.touched.any fun x => x.same va p.loc wrote then
    { t with touched := t.touched.map fun x => if x.same va p.loc wrote then { x with elem := min x.elem e } else x }
  else { t with touched := t.touched ++ [⟨va, p.loc, wrote, e⟩] }

/-- A strip names a stream (R178). -/
def Strip.name (t : Strip) (q : Nat) : Strip := if t.named.contains q then t else { t with named := t.named ++ [q] }

/-- A vector memory instruction that stays in its strip: the checks of R353, its effect, the stream named. -/
def vectorMem (i : Instr) (f : VFields) (indexed virt : Bool) (s : State) (body : VMem → State → Res Unit) : Out :=
  vector i s fun s =>
    let m := s.vmem f indexed virt
    if !m.streamOk then .trap 0x01 i.word s
    else (body m s).bind fun _ s =>
      .ok () ((s.onStrip fun t => t.name f.qs.toNat).clearAnswers s.cur.vectorCx.who)

/-! ### Loads (R356) -/

/-- An acquire of the open strip meets a tag: the event counts when the strip commits (R208, R274). -/
def State.pendAcquire (s : State) (cx : Ctx) (e loc scope : Nat) : State :=
  match s.acquireEvent cx loc scope with
  | none => s
  | some v => s.onStrip fun t => { t with events := t.events ++ [(e, loc, v)] }

/-- Read one element (R355, R356): its value and where it lay; it waits for a link that holds its traffic (R32, R36). Its bytes count in the
audit ranges at once, and stay counted if the strip aborts (R65 beside R208: DEDUCED, log 38). -/
def VMem.load (m : VMem) (s : State) (cx : Ctx) (o : Order) (x : Elem) : Res (Nat × Spot) :=
  let nib (v : Nat) : Nat := if m.q.esz = 0 then (if x.high then v / 16 else v) % 16 else v
  let n := m.q.bytes
  (m.spot s cx .read x).bind fun p s =>
    match x.lane with
    | some l => .ok (nib (s.cur.vec.laneRead (laneLoc l p.loc) n), p) s
    | none => match s.check p n false with
      | some c => .trap c x.va s
      | none =>
        if s.linkHeld cx.die p.loc then .stall .loadData s
        else if spaceOf p.loc = .host then (s.hostRead cx x.va p n).bind fun v s => .ok (nib v, p) s
        else
          let (v, s) := s.performRead cx p n { o with acq := false }
          .ok (nib v, p) (if o.acq then s.pendAcquire cx x.e p.loc (effScope o.scp p.win p.loc) else s)

/-- A trimmed load starts the page's service without waiting for it (R220): it is no waiter of a service of `s`. -/
def State.noWaiter (s s0 : State) (who : Nat) : State :=
  let waited (leaf : Nat) : Bool := s0.dies.any (fun d => d.steward.services.any fun x => x.leaf = leaf && x.waiters.contains who)
  let f (x : Service) : Service := if waited x.leaf then x else { x with waiters := x.waiters.erase who }
  { s with dies := s.dies.map fun d => { d with steward := { d.steward with services := d.steward.services.map f } } }

/-- Does a service run for the page of an address (R183)? -/
def State.serviceRuns (s : State) (cx : Ctx) (va : Word) : Bool :=
  match walk s cx.root va.toNat with
  | .steward a _ => s.dies.any fun d => d.steward.services.any fun x => x.leaf = a
  | _ => false

/-- An element that has been read. -/
structure Loaded where
  x : Elem
  v : Nat
  p : Spot

/-- Read elements in order: those read before the first fault, and the element of that fault (R220, R356). A fault of
element 0 traps, its migratable page stalls; that of a later element trims once its service has begun. -/
def VMem.loadAll (m : VMem) (cx : Ctx) (o : Order) : List Elem → State → Res (List Loaded × Option Nat)
  | [], s => .ok ([], none) s
  | x :: xs, s =>
    match m.load s cx o x with
    | .ok (v, p) s' => (m.loadAll cx o xs s').bind fun r s => .ok (⟨x, v, p⟩ :: r.1, r.2) s
    | .trap c t s' => (if x.e = 0 then .trap c t s' else .ok ([], some x.e) s')
    | .stall w s' => if x.e ≠ 0 ∧ s'.serviceRuns cx x.va then .ok ([], some x.e) (s'.noWaiter s cx.who) else .stall w s'

/-- The trim of a load, then vD (R356): +0 in pad elements, what was read in those that took part. -/
def VMem.deliver (m : VMem) (s : State) (wide : Nat) (r : List Loaded × Option Nat) : State :=
  let s := match r.2 with | some k => s.trim k | none => s
  let g := s.cur.range wide
  let blank := (eachBits s g m.f m.w (s.v m.f.d) fun _ => (0, 0)).1
  let s := s.writeV m.f.d m.w g.top (r.1.foldl (fun a l => setEl a m.w l.x.e l.v) blank)
  s.onStrip fun t => r.1.foldl (fun t l => if l.x.lane.isSome then t else t.touch l.x.e l.x.va l.p false) t

/-- The width that limits an instruction's range (R327, R354). -/
def VMem.wide (m : VMem) : Nat := if m.indexed then max m.w m.iw else m.w

/-- VLD and VGATH (R356). -/
def loadBody (m : VMem) (s : State) : Res Unit :=
  (m.loadAll s.cur.vectorCx (.of m.f.ord m.f.scp) (m.elems s) s).bind fun r s => .ok () (m.deliver s m.wide r)

/-- VLD (R356). -/
def execVld (f : VFields) (s : State) : Out := vectorMem (.vld f) f false false s loadBody

/-- VGATH (R356). -/
def execVgath (f : VFields) (s : State) : Out := vectorMem (.vgath f) f true false s loadBody

/-! ### Prefetch (R365) -/

/-- VPREF (R365): no effect but the naming of its stream. -/
def execVpref (f : VFields) (s : State) : Out := vectorMem (.vpref f) f false false s fun _ s => .ok () s

/-! ### Stores (R215, R221, R357) -/

/-- The charges of a VST: 16 bytes for each element group of a lane below VBL (R215). -/
def VMem.groupCharges (m : VMem) : List (Nat × Nat) :=
  let k := perGroup m.w
  let n := (m.g.vbl + k - 1) / k
  (List.range (min n m.lanes)).map fun l => (l, 16 * (n / m.lanes + (if l < n % m.lanes then 1 else 0)))

/-- The charges of a VSCAT: 16 bytes for each element of a lane that takes part (R215, R354). -/
def VMem.elemCharges (m : VMem) (s : State) : List (Nat × Nat) := (m.elems s).map fun x => (s.cur.laneOf m.w x.e, 16)

/-- Add charges. -/
def addCharges (t : Table Nat) (cs : List (Nat × Nat)) : Table Nat :=
  cs.foldl (fun t c => Table.set 0 t c.1 (Table.get 0 t c.1 + c.2)) t

/-- Check every element of a store (R221, R357). -/
def VMem.spots (m : VMem) (cx : Ctx) : List Elem → State → Res (List (Elem × Spot))
  | [], s => .ok [] s
  | x :: xs, s =>
    (m.spot s cx .write x).bind fun p s => (m.spots cx xs s).bind fun r s => .ok ((x, p) :: r) s

/-- The buffered store of an element (R357). -/
def VMem.buffered (m : VMem) (s : State) (x : Elem) (p : Spot) : BufStore :=
  { lane := x.lane, va := x.va, loc := p.loc, key := p.key, bits := m.g.el (s.v m.f.a) m.w x.e, width := m.w, high := x.high
    elem := x.e, release := m.f.ord / 2 = 1, scope := m.f.scp }

/-- VST and VSCAT (R357): the charge, the checks of every element, then all of them are buffered. -/
def storeBody (charges : VMem → State → List (Nat × Nat)) (m : VMem) (s : State) : Res Unit :=
  match s.cur.vec.strip with
  | none => .ok () s
  | some t =>
    let charge := addCharges t.charge (charges m s)
    let most := charge.foldl (fun a c => max a c.2) 0
    if most > Config.storeBuffer then .trap 0x07 (BitVec.ofNat 64 most) s
    else (m.spots s.cur.vectorCx (m.elems s) s).bind fun xs s =>
      .ok () (s.onStrip fun t =>
        xs.foldl (fun t x => if x.1.lane.isSome then t else t.touch x.1.e x.1.va x.2 true)
          { t with charge := charge, stores := t.stores ++ xs.map fun x => m.buffered s x.1 x.2 })

/-- VST (R357). -/
def execVst (f : VFields) (s : State) : Out := vectorMem (.vst f) f false false s (storeBody fun m _ => m.groupCharges)

/-- VSCAT (R357). -/
def execVscat (f : VFields) (s : State) : Out := vectorMem (.vscat f) f true false s (storeBody VMem.elemCharges)

/-! ### Linked gather (R359, R361) -/

/-- Do two lists hold the same lines? -/
def sameLines (a b : List Nat) : Bool := a.all b.contains && b.all a.contains

/-- Is the lock granted to the hart in focus and not yet used (R361)? -/
def State.lockGranted (s : State) : Bool :=
  match s.store.lock with | some (who, [], _) => who = s.cur.uid * 4 | _ => false

/-- A lock of the hart in focus ends (R361). -/
def State.dropLock (s : State) : State :=
  s.onStore fun st => match st.lock with
    | some (who, _, _) => if who = s.cur.uid * 4 then { st with lock := none } else st
    | none => st

/-- The hart in focus asks for the lock (R361). -/
def State.askLock (s : State) : State :=
  let who := s.cur.uid * 4
  s.onStore fun st => if st.lockQueue.contains who then st else { st with lockQueue := st.lockQueue ++ [who] }

/-- The links that no home drops (R359), by free values from number `n` on (log 12). -/
def keptLinks (n : Nat) : List Link → List Link
  | [] => []
  | l :: ls => if Config.freeNat n % 2 = 1 then keptLinks (n + 1) ls else l :: keptLinks (n + 1) ls

/-- A home never drops the link of the lowest element (R359). -/
def standingLinks (n : Nat) : List Link → List Link
  | [] => []
  | l :: ls => l :: keptLinks n ls

/-- The links of a VGLNK (R359); a locked one loses none and locks its lines (R361). -/
def State.makeLinks (s : State) (locked : Bool) (ls : List Loaded) : State :=
  let all := ls.map fun l => (⟨l.x.e, l.x.va, l.p.loc, true⟩ : Link)
  if locked then
    (s.onCur fun x => { x with links := all }).onStore fun st =>
      { st with lock := st.lock.map fun k => (k.1, (ls.map fun l => lineOf l.p.loc).eraseDups, k.2.2) }
  else { s.onCur fun x => { x with links := standingLinks s.free all } with free := s.free + ls.length }

/-- VGLNK (R356, R359, R361). -/
def execVglnk (f : VFields) (s : State) : Out :=
  vectorMem (.vglnk f) f true true s fun m s =>
    let els := m.elems s
    let lines := (els.map fun x => x.va.toNat / 64).eraseDups
    let count := if sameLines lines s.cur.linkSet then s.cur.allFail else 0
    let granted := s.lockGranted
    let s := s.onCur fun x => { x with links := [], linkSet := lines, allFail := count }
    let locked : Bool := count = 16
    let s := if locked && granted then s else s.dropLock
    if locked && !granted then .stall .lock s.askLock
    else (m.loadAll s.cur.vectorCx (.of f.ord f.scp) els s).bind fun r s =>
      .ok () ((m.deliver s m.wide r).makeLinks locked r.1)

/-! ### Instructions that end a strip (R358) -/

/-- Step 2 of R358: checks 1 to 4 of every element; a free frame or block that is to be written is claimed; a write to a
locked line waits (R361). -/
def VMem.claims (m : VMem) (cx : Ctx) (k : Kind) (write : Bool) : List Elem → State → Res (List (Elem × Spot))
  | [], s => .ok [] s
  | x :: xs, s =>
    (m.spot s cx k x).bind fun p s =>
      if (write && s.locked cx p.loc) || s.adLocked cx x.va p write then .stall .lock s
      else match s.store.guard p.key p.loc write with
        | .refused => .trap 0x06 x.va s
        | g =>
          let s := if g = .claims then s.onStore fun st => { st with owners := Table.set freeOwner st.owners (ownerKey p.loc) p.key } else s
          (m.claims cx k write xs s).bind fun r s => .ok ((x, p) :: r) s

/-- The replay list of a strip that opens after the word `next` of the running convoy (R219; log 23). -/
def Hart.replayFrom (x : Hart) (next : Nat) : List Replay :=
  match x.vec.queue with
  | b :: bs => ⟨b.addr, b.regs, b.head + next, b.since⟩ :: bs.map fun b => ⟨b.addr, b.regs, 0, b.since⟩
  | [] => []

/-- A strip opens at the word `next` of the running convoy (R219); what the block has written to its result slots stays. -/
def Hart.reopenAt (x : Hart) (next : Nat) : Hart :=
  let queue := match x.vec.queue with | b :: bs => { b with y := x.vec.yBlock } :: bs | [] => []
  let y := { x with vec := { x.vec with queue := queue } }
  y.openStrip (y.replayFrom next)

/-- The member of the convoy that runs next. -/
def Hart.member (x : Hart) : Nat := match x.vec.queue with | b :: _ => b.next | [] => 0

/-- Steps 1 to 3 of R358, then step 4, `op`. A cancel request lands and a lease that drains stops when the strip has
committed (R108, R232). -/
def vectorCommit (i : Instr) (m : VMem) (k : Kind) (write : Bool) (s : State) (op : List (Elem × Spot) → State → Out) : Out :=
  if !m.streamOk then vectorTrap s s 0x01 i.word
  else match m.claims s.cur.vectorCx k write (m.elems s) s with
    | .stall w s' => .next ((s.keepRequests s').vectorStalls w)
    | .trap c t s' =>
      vectorTrap s (if s'.cur.vec.strip.isSome then s' else s'.onCur fun x => x.reopenAt x.member) c t
    | .ok xs s' => match s'.commit with
      | .stall w s' => .next ((s.keepRequests s').vectorStalls w)
      | .refused c t s' => .next (s'.onCur fun x => x.pendTrap c t)
      | .done s' =>
        let cancels := s'.cur.wait.cancel.isSome
        if s'.cur.lease.draining.isSome || (s'.cur.wait.move.isSome && !cancels) then
          let trim := s.cur.vec.reopen.getD false
          .next (s'.onCur fun x => ({ x with vec := { x.vec with reopen := some trim } }).stopLease true)
        else if cancels then .next s'.cancelLands
        else op xs s'

/-- Steps 6 and 7 of R358: the stream advances, the new strip opens; Poison is a vector trap of the new strip. -/
def endCommitPoint (f : VFields) (bad : Option (Nat × Word)) (s : State) : Out :=
  let s := s.onCur fun x => (x.bumpStream f.qs.toNat x.vec.vl).reopenAt (x.member + 1)
  match bad with
  | none => .next s.nextWord
  | some (_, va) => vectorTrap s s 0x0E va

/-- The lowest element that met Poison. -/
def lowestBad (b : Option (Nat × Word)) (x : Nat × Word) : Option (Nat × Word) :=
  match b with
  | none => some x
  | some y => if x.1 < y.1 then some x else some y

/-! ### VSCND (R360, R361) -/

/-- The elements that succeed unless they meet Poison (R360): those that survive, but for duplicates. -/
def succeeding (links : List Link) : List (Elem × Spot) → List Word → List (Elem × Spot)
  | [], _ => []
  | x :: xs, won =>
    if links.any (fun l => l.elem = x.1.e && l.va = x.1.va) && !won.contains x.1.va then x :: succeeding links xs (x.1.va :: won)
    else succeeding links xs won

/-- Write the succeeding elements: the state, those that wrote, the lowest that met Poison. -/
def VMem.conditional (m : VMem) (cx : Ctx) : List (Elem × Spot) → State → State × List Nat × Option (Nat × Word)
  | [], s => (s, [], none)
  | x :: xs, s =>
    if s.store.poisoned x.2.loc m.q.bytes then
      let r := m.conditional cx xs s
      (r.1, r.2.1, some (x.1.e, x.1.va))
    else
      let v := m.g.el (s.v m.f.a) m.w x.1.e
      let s := (s.setAD cx.root x.1.va x.2 true).performWrite cx x.2 m.q.bytes v (.of m.f.ord m.f.scp)
      let r := m.conditional cx xs s
      (r.1, x.1.e :: r.2.1, r.2.2)

/-- Bits 0 to VL - 1 of a mask: those listed are 1 (R360, R363). -/
def listedBits (old vl : Nat) (es : List Nat) : Nat :=
  es.foldl (fun a e => setEl a 1 e 1) (undefBits old 0 vl 0)

/-- The count of all-fail VSCNDs (R361). -/
def Hart.countFail (x : Hart) (took won : Bool) : Hart :=
  if won then { x with allFail := 0 } else if took then { x with allFail := min 16 (x.allFail + 1) } else x

/-- VSCND (R358, R360, R361). -/
def execVscnd (f : VFields) (s : State) : Out :=
  let i := Instr.vscnd f
  guardVector i s <|
    let m := s.vmem f true true
    vectorCommit i m .write true s fun xs s =>
      let r := m.conditional s.cur.vectorCx (succeeding s.cur.links xs []) s
      let s := r.1.dropLock.onCur fun x => { x with links := [] }.countFail (xs ≠ []) (r.2.1 ≠ [])
      let s := s.writeM f.d.toNat m.g.vl (listedBits (s.m f.d.toNat) m.g.vl r.2.1)
      endCommitPoint f r.2.2 s

/-! ### VAMO (R362) -/

/-- Bits [6:3] of FN: OP or COND (R352). -/
def opField (f : VFields) : Nat := bitsOf f.fnN 6 3

/-- The new value of a vector atomic and its flags (R362). -/
def vamoNew (op w old d : Nat) : Nat × FlagSet :=
  if op = 9 then deliver .f32 0 (addV 0 (valOf .f32 old) (valOf .f32 d)) else (amoNew op w old d, 0)

/-- The flags of an element merge at once (R358 step 5). -/
def Hart.flagNow (x : Hart) (e : Nat) (fl : FlagSet) : Hart :=
  if fl = 0 then x else { x with fp := { x.fp with flags := x.fp.flags ||| fl, eidx := x.fp.eidx.note e fl } }

/-- Perform the elements in order: the state, the old values, the lowest that met Poison. -/
def VMem.atomics (m : VMem) (cx : Ctx) : List (Elem × Spot) → State → State × List (Nat × Nat) × Option (Nat × Word)
  | [], s => (s, [], none)
  | x :: xs, s =>
    if s.store.poisoned x.2.loc m.q.bytes then
      let r := m.atomics cx xs s
      (r.1, r.2.1, some (x.1.e, x.1.va))
    else
      let o := Order.of m.f.ord m.f.scp
      let (old, s) := (s.setAD cx.root x.1.va x.2 true).performRead cx x.2 m.q.bytes { o with rel := false }
      let n := vamoNew (opField m.f) m.w old (m.g.el (s.v m.f.a) m.w x.1.e)
      let s := (s.performWrite cx x.2 m.q.bytes n.1 o).onCur fun h => h.flagNow x.1.e n.2
      let r := m.atomics cx xs s
      (r.1, (x.1.e, old) :: r.2.1, r.2.2)

/-- VAMO (R358, R362). -/
def execVamo (f : VFields) (s : State) : Out :=
  let i := Instr.vamo f
  guardVector i s <|
    let m := s.vmem f true true
    vectorCommit i m .readWrite true s fun xs s =>
      let r := m.atomics s.cur.vectorCx xs s
      let s := r.1
      let s := if bitsOf f.fnN 7 7 = 0 then s
        else
          let blank := (eachBits s m.g f m.w (s.v f.d) fun _ => (0, 0)).1
          s.writeV f.d m.w m.g.top (r.2.1.foldl (fun a l => setEl a m.w l.1 l.2) blank)
      endCommitPoint f r.2.2 s

/-! ### VWAITV (R363, R364) -/

/-- COND (R363). -/
def vwaitHolds (cond w m c : Nat) : Bool :=
  match cond with
  | 0 => m = c
  | 1 => m ≠ c
  | 2 => c ≤ m
  | 3 => m < c
  | 4 => sextOf c w ≤ sextOf m w
  | _ => sextOf m w < sextOf c w

/-- One round of reads: an element that is satisfied, or meets Poison, is watched no more. Only its last read is a
load of the execution. -/
def VMem.round (m : VMem) (cx : Ctx) (last : Bool) : List Watch → State → State
  | [], s => s
  | x :: xs, s =>
    let p : Spot := ⟨x.loc, cx.key, x.win⟩
    let o := Order.of m.f.ord m.f.scp
    if (s.poisonCheck p m.q.bytes false).isSome then
      m.round cx last xs (s.onCur fun h => { h with wait := { h.wait with
        watch := h.wait.watch.filter fun y => y.elem ≠ x.elem, bad := lowestBad h.wait.bad (x.elem, x.va) } })
    else if vwaitHolds (opField m.f) m.w (s.peek p m.q.bytes) (m.g.el (s.v m.f.a) m.w x.elem) then
      m.round cx last xs ((s.performRead cx p m.q.bytes o).2.onCur fun h => { h with wait := { h.wait with
        watch := h.wait.watch.filter fun y => y.elem ≠ x.elem } })
    else m.round cx last xs (if last then (s.performRead cx p m.q.bytes o).2 else s)

/-- A round of a VWAITV under way, and its end when every element is satisfied or the deadline has come (R363). -/
def VMem.poll (m : VMem) (f : VFields) (deadline : Nat) (s : State) : Out :=
  let last : Bool := deadline ≤ s.cycle
  let s := m.round s.cur.vectorCx last s.cur.wait.watch (s.onCur fun x => { x with wait := { x.wait with woken := false } })
  let left := s.cur.wait.watch
  if left = [] ∨ last then
    let bad := s.cur.wait.bad
    let s := s.writeM f.d.toNat m.g.vl (listedBits (s.m f.d.toNat) m.g.vl (left.map (·.elem)))
    endCommitPoint f bad (s.onCur fun x => { x with wait := x.wait.noVwait })
  else .next s

/-- A VWAITV begins (R363): A bits, the elements to watch, the deadline; no strip is open while it waits. -/
def State.startVwait (s : State) (xs : List (Elem × Spot)) (deadline : Nat) : State :=
  let s := xs.foldl (fun s x => s.setAD s.cur.base.ptroot x.1.va x.2 false) s
  s.onCur fun x => { x with
    vec := { x.vec with reopen := some (x.vec.reopen.getD false) }
    wait := { x.wait with deadline := some deadline, woken := false, bad := none
                          watch := xs.map fun y => ⟨y.1.e, y.1.va, y.2.loc, y.2.win⟩ } }

/-- VWAITV (R358, R363). -/
def execVwaitv (f : VFields) (s : State) : Out :=
  let i := Instr.vwaitv f
  guardVector i s <|
    let m := s.vmem f (bitsOf f.fnN 2 2 = 1) true
    match s.cur.wait.deadline with
    | some d => m.poll f d s
    | none => vectorCommit i m .read false s fun xs s =>
      let d := s.cycle + 256 * (f.immN % 2048)
      m.poll f d (s.startVwait xs d)

end Sys2Proof.Machine
end

