-- ==== Sys2Proof/Machine/HartEvents.lean ====
section
/-! DEFINITION. Events at one hart: the end of a block (R158), traps that are taken (R225, R226), breakpoints (R268),
residue mismatches (R231), the wake and the deadline of a VWAITV (R363), the lock of R361, cancel requests (R108), the
retirement of a hart (R99, R405). -/

namespace Sys2Proof.Machine

/-- The breakpoint that matches an address: 1 for BPA0, 2 for BPA1 (R267, R268). -/
def Hart.breakpoint (x : Hart) (vec : Bool) (a : Word) : Option Nat :=
  let hit (b : Word) : Bool := b.getLsbD 0 && b.getLsbD 1 = vec && b >>> 2 = a >>> 2
  if x.handler.isSome then none
  else if hit x.trap.bpa0 then some 1
  else if hit x.trap.bpa1 then some 2
  else none

/-- Has a store or an atomic issued that has still to perform (R319), or is an attach under way (R85)? The hart's boundary falls after it. -/
def Hart.issuedWrite (x : Hart) : Bool := x.wait.stall = some .lock || x.wait.stall = some .attach

/-- May a cancel request land here (R108)? One that came in this cycle does not yet (R104); a revocation or pre-emption of the lease
goes first (R109). -/
def Hart.cancelReady (x : Hart) (now : Nat) : Bool :=
  x.wait.cancel.any (· < now) && (x.occ = .running || x.occ = .stopped || x.occ = .preempted)
    && (x.atBoundary || x.lease.state = .suspended) && !(x.lease.state = .held && (x.lease.draining.isSome || x.lease.susp.isSome))
    && !x.issuedWrite

/-- Is the hart stopped by a suspension (R122, R232)? The handler of R140's Lease Impossible runs. -/
def Hart.stopped (x : Hart) : Bool :=
  match x.lease.susp with
  | none => false
  | some u => match u.raised with
    | some d => x.trap.depth < d
    | none => true

/-! ### Blocks and traps -/

/-- The block that ended leaves the vector queue (R158, R393). -/
def Hart.finishBlock (x : Hart) : Hart :=
  match x.vec.queue with
  | b :: bs => if b.ended then { x with vec := { x.vec with queue := bs, status := some false } } else x
  | [] => x

/-- BLOCK_FINISH (R158): not while the lease is stopped. -/
def execBlockFinish (h : HartId) (s : State) : Out :=
  let s := s.focus h
  if s.cur.stopped then .next s else .next (s.onCur Hart.finishBlock)

/-- Does the hart stand at an instruction boundary at which traps are taken: no cancel request, pre-emption or suspension comes first
(R226)? -/
def Hart.atIssue (x : Hart) (now : Nat) : Bool :=
  x.occ = .running && !x.issuedWrite && !x.cancelReady now && !(x.wait.preempt && x.lease.state ≠ .held) && !x.stopped

/-- Is a vector trap, or else a held event, taken before the next instruction (R226)? -/
def Traps.first (t : Traps) : Bool := t.depth = 0 && (t.vtrap.isSome || t.held ≠ [])

/-- VECTOR_TRAP_TAKE (R226, R227). -/
def execVectorTrapTake (h : HartId) (s : State) : Out :=
  let s := s.focus h
  match s.cur.trap.vtrap with
  | none => .next s
  | some v =>
    if s.cur.trap.depth ≠ 0 ∨ !s.cur.atIssue s.cycle then .next s
    else .next (s.takePending (fun t => { t with vtrap := none }) v.cause.toNat v.tval v.epc true)

/-- ASYNC_EVENT_TAKE (R225, R227). -/
def execAsyncEventTake (h : HartId) (s : State) : Out :=
  let s := s.focus h
  match s.cur.trap.held with
  | [] => .next s
  | e :: es =>
    if s.cur.trap.depth ≠ 0 ∨ s.cur.trap.vtrap.isSome ∨ !s.cur.atIssue s.cycle then .next s
    else .next (s.takePending (fun t => { t with held := es }) e.1.toNat e.2 s.pc false)

/-- Does a vector breakpoint match the convoy at its head (R268)? Not while the lease is stopped (R232). -/
def Hart.vectorBreak (x : Hart) : Option Nat :=
  match x.vec.queue with
  | b :: _ => if b.words = [] && !b.ended && !x.trap.bpctl && x.vec.strip.any (!·.aborted) && !x.stopped && x.lease.state ≠ .suspended then x.breakpoint true x.cvp else none
  | [] => none

/-- A vector breakpoint is met at the convoy's head: once its trap pends, SKIP is set (R268). -/
def breakConvoy (s : State) (k : Nat) : Out :=
  match vectorTrap s s 0x09 (BitVec.ofNat 64 k) with
  | .next s' => .next (if s'.cur.trap.vtrap.isSome then s'.onCur fun x => { x with trap := { x.trap with bpctl := true } } else s')
  | r => r

/-- BREAKPOINT (R268): a scalar match at the next instruction, else a vector match at the convoy's head; SKIP is then
set. -/
def execBreakpoint (h : HartId) (s : State) : Out :=
  let s := s.focus h
  match (if s.cur.trap.afterTret || !s.cur.atIssue s.cycle || s.cur.trap.first then none else s.cur.breakpoint false s.cur.base.pc) with
  | some k => .next (s.scalarTrap 0x09 (BitVec.ofNat 64 k))
  | none => match s.cur.vectorBreak with
    | some k => breakConvoy s k
    | none => .next s

/-! ### Residue (R24, R231) -/

/-- Three mismatches within 2.4 × 10⁹ cycles (R24)? -/
def Pod.worn (p : Pod) (now : Nat) : Bool := 3 ≤ (p.mism.filter fun t => now ≤ t + 2400000000).length

/-- A Pod counts a mismatch, and is retired at the third (R22, R24). -/
def State.countMismatch (s : State) (d p : Nat) : State :=
  let s := s.onPod d p fun q => { q with mism := s.cycle :: q.mism.take 14 }
  if (s.pod d p).worn s.cycle then s.retirePod d p 2 else s

/-- The Pods of some positions of the hart's lease. -/
def Hart.podsAt (x : Hart) (positions : List Nat) : List Nat :=
  (positions.eraseDups.filterMap fun k => x.lease.pods[k]?).map fun p => 16 * x.lease.clu + p

/-- RESIDUE_MISMATCH (R231, R239): abort, count, replay. The named positions of the lease, which runs a strip, mismatched. -/
def execResidueMismatch (h : HartId) (positions : List Nat) (s : State) : Out :=
  let s := s.focus h
  if !s.cur.vec.strip.any (!·.aborted) || s.cur.vec.queue = [] || s.cur.stopped || s.cur.lease.state ≠ .held || s.roundHolds s.cur then .next s
  else engineEvent s (s.cur.uid * 4) ((s.abortStrip 0).bind fun _ s =>
    let s := s.onCur fun x => { x with vec := { x.vec with resrep := satAdd x.vec.resrep 1 }, wait := x.wait.noVwait }
    let s := (s.cur.podsAt positions).foldl (fun s p => s.countMismatch s.cur.lease.die p) s
    .ok () (s.onCur fun x => (x.stopLease true).replay))

/-! ### VWAITV (R363) -/

/-- The VWAITV under way makes another round. -/
def pollVwaitv (s : State) : Out :=
  match s.cur.vec.queue with
  | b :: _ => (match (b.words[b.next]?).bind fun w => (decodeVector w).toOption with
    | some (.vwaitv f) => execVwaitv f s
    | _ => .next s)
  | [] => .next s

/-- VWAITV_WAKE (R363): a write has reached a watched line. -/
def execVwaitvWake (h : HartId) (s : State) : Out :=
  let s := s.focus h
  if s.cur.wait.deadline.isSome && s.cur.wait.woken then pollVwaitv s else .next s

/-- VWAITV_TIMEOUT (R363). -/
def execVwaitvTimeout (h : HartId) (s : State) : Out :=
  let s := s.focus h
  if s.cur.wait.deadline.any (· ≤ s.cycle) then pollVwaitv s else .next s

/-! ### The lock (R361) -/

/-- Does the hart of a name still wait for the lock? -/
def State.wantsLock (s : State) (who : Nat) : Bool :=
  match s.byUid (who / 4) with
  | some x => x.vec.queue ≠ [] && x.trap.vtrap.isNone && x.lease.state = .held && x.lease.susp.isNone
  | none => false

/-- LOCK_GRANT (R361): in order of request, once the lock before has ended. -/
def execLockGrant (s : State) : Out :=
  if !s.lockOver then .next s
  else match s.store.lockQueue.filter s.wantsLock with
    | [] => .next (s.onStore fun st => { st with lock := none, lockQueue := [] })
    | w :: ws => .next (s.onStore fun st => { st with lock := some (w, [], s.cycle), lockQueue := ws })

/-- LOCK_TIMEOUT (R361). -/
def execLockTimeout (s : State) : Out :=
  match s.store.lock with
  | some (_, _, t) => if t + 65536 ≤ s.cycle then .next (s.onStore fun st => { st with lock := none }) else .next s
  | none => .next s

/-! ### Cancel requests (R108) -/

/-- CANCEL_LAND (R108, R109). -/
def execCancelLand (h : HartId) (s : State) : Out :=
  let s := s.focus h
  if s.cur.cancelReady s.cycle then .next s.cancelLands else .next s

/-- CANCEL_TIMEOUT (R108, R135). -/
def execCancelTimeout (h : HartId) (s : State) : Out :=
  let s := s.focus h
  let x := s.cur
  if x.wait.cancel.any (· + Config.boundaryLimit ≤ s.cycle) && !x.atBoundary && x.lease.state = .held && x.lease.susp.isNone
  then .next (s.onCur fun x => x.stopNow 3)
  else .next s

/-! ### Retirement of a hart (R99, R106, R405) -/

/-- Are the hart's queues empty? -/
def Queues.empty (q : Queues) : Bool := q.cq0 = [] && q.cq1 = [] && q.xq = []

/-- Is the launch of a run under way, not given up (R41, R42)? -/
def State.launching (s : State) (r : Run) : Bool := s.engines.launches.any fun l => l.run = r.id && l.aborts = []

/-- A hart whose queues are empty leaves its slot: a TEXIT counts (R99), its run goes on without it (R89, R106). Before
the commit of a cross-die launch it is held (R41); that of a launch that was given up is discarded (R42). -/
def State.leaveSlot (s : State) (exited : Bool) : Res Unit :=
  let x := s.cur
  let gone (s : State) : Res Unit :=
    let s := { s with cur := s.cur.cleared }
    match s.runOf x with
    | none => .ok () s
    | some r => s.hartGone r x
  match s.runOf x with
  | none => gone s
  | some r =>
    if r.waitsCommit x && (s.launching r || (r.origin.isSome && r.state ≠ .aborted)) && x.occ ≠ .cancelled then .ok () s
    else if exited && !r.waitsCommit x && r.state ≠ .aborted then (s.setDone r x).bind fun _ s => gone s
    else gone s

/-- HART_RETIRE (R99, R108, R405): the session is closed (R370), then the hart goes. -/
def execHartRetire (h : HartId) (s : State) : Out :=
  let s := s.focus h
  let leave (exited : Bool) : Out :=
    if !s.cur.qs.empty then .next s
    else engineEvent s (s.cur.uid * 4) (s.closeSession.bind fun _ s => s.leaveSlot exited)
  match s.cur.occ with
  | .retiring e => leave e
  | .cancelled => leave false
  | _ => .next s

end Sys2Proof.Machine
end

