-- ==== Sys2Proof/Machine/Mailbox.lean ====
section
/-! DEFINITION. The management mailbox (R56, R59-R70). -/

namespace Sys2Proof.Machine

/-! ### Request and response (R60, R61) -/

/-- What a command comes to: the status, the response and the state after it; or it waits for the host's memory or for room in a log. -/
inductive MailReply where
  | reply (status : Nat) (bytes : List Byte) (state : State)
  | waits (state : State)

/-- `n` bytes of the request as a number. -/
def Port0.arg (q : Port0) (off n : Nat) : Nat := q.mbdata.readN off n

/-- The response stands in MBDATA (R60). -/
def MailReply.post : MailReply → State
  | .reply status bytes s => s.onPort fun q =>
    { q with mbdata := q.mbdata.writeBytes 0 bytes, mbresult := (status, bytes.length), mbdone := true }
  | .waits s => s

/-- The status codes of R61. -/
def badArg : Nat := 2
def badSlot : Nat := 3

/-- A command that fails has no effect (R61). -/
def State.fails (s : State) (status : Nat) : MailReply := .reply status [] s

/-- The management core carries out the command in MBCMD, once; below STEP 8 with NOTREADY (R60, R61). One that waits is tried again. -/
def mailbox (code : Nat) (s : State) (f : Port0 → MailReply) : Out :=
  let q := s.port
  if q.busy && !q.mbdone && q.mbcmd.toNat = code then
    .next (if (s.die 0).boot.step < 8 then (s.fails 8).post else (f q).post)
  else .next s

/-- MAILBOX_DONE (R60). -/
def execMailboxDone (s : State) : Out :=
  .next (if s.port.busy && s.port.mbdone then s.onPort fun q => { q with busy := false, mbdone := false } else s)

/-- BADCMD (R61): at any STEP. -/
def execBadcmd (s : State) : Out :=
  let q := s.port
  .next (if q.busy && !q.mbdone && !(1 ≤ q.mbcmd.toNat && q.mbcmd.toNat ≤ 7) then (s.fails 1).post else s)

/-! ### KEYLOAD (R59) -/

/-- Set a key slot. -/
def State.setKey (s : State) (k : Nat) (v : KeySlot) : State :=
  s.onStore fun st => { st with keys := Table.set KeySlot.empty st.keys k v }

/-- The key pair of a blob for a slot (R59): the sender's public key, then K1 and K2 wrapped under the key derived from the secret
shared with the wrap key of this start (R69); none where the integrity check fails. -/
def unwrapBlob (start slot : Nat) (blob : List Byte) : Option (Nat × Nat) :=
  let shared := x25519 (Config.wrapSecret start) (blob.take 32)
  let info : List Byte := [0x5A, 0x4D, 0x2D, 0x34, 0x35, 0x31, 0x32, 0x20, 0x6B, 0x65, 0x79, 0x20, 0x73, 0x6C, 0x6F, 0x74]
  (unwrapKw (hkdf shared (info ++ toBytes 1 slot)) (blob.drop 32)).map fun k => (ofBytes (k.take 32), ofBytes (k.drop 32))

/-- KEYLOAD (R59, R61, R69). -/
def execKeyload (s : State) : Out :=
  mailbox 1 s fun q =>
    let k := q.arg 0 1
    if k = 0 ∨ Table.get KeySlot.empty s.store.keys k ≠ .empty then s.fails badSlot
    else match unwrapBlob s.retained.starts k (q.mbdata.readBytes 8 104) with
      | none => s.fails 4
      | some (k1, k2) => if k1 = k2 then s.fails 5 else .reply 0 [] (s.setKey k (.loaded k1 k2))

/-! ### RELEASE (R62-R64) -/

/-- Does a flit ask for work under a key slot? -/
def flitUnder (k : Nat) (f : Flit) : Bool :=
  match f.body with
  | .put _ slot _ | .get _ slot _ | .sig _ _ slot => slot = k
  | .gang (.prepare _ _ _ _ slot ..) => slot.toNat = k
  | _ => false

/-- Is the slot in use (R61): a live hart or handler, or its queues; a pre-empted hart; a message that waits (R151); a node that is placed or runs; a
service of the steward; a flit whose work waits at a port? -/
def State.keyInUse (s : State) (k : Nat) : Bool :=
  (s.harts.any fun x => x.occ ≠ .empty && x.base.key.toNat = k)
    || (s.engines.parked.any fun x => x.base.key.toNat = k)
    || (s.cores.any fun c => (c.wire ++ c.queue).any fun m => m.kslot.toNat = k)
    || (s.engines.runs.any fun r => r.slot.toNat = k && r.state ≠ .aborted)
    || (s.engines.attached.any fun a => a.slot.toNat = k
          && (List.range a.ncount).any fun i => s.nodeState a i = 3 || s.nodeState a i = 4)
    || s.dies.any fun d => (d.steward.services.any fun v => bitsOf v.entry 63 56 = k) || d.ports.any fun p => p.2.held.any (flitUnder k)

/-- A unit that the release scrubs: kind, die, index (R64). -/
abbrev ScrubUnit := Nat × Nat × Nat

/-- The unit of an owned frame or block (R58, R64, R169): HBM frames, 4 KiB blocks of the core scratchpads and of the chip
scratchpads, by their number within the die. -/
def ownedUnit (key : Nat) : ScrubUnit :=
  if key < 2 ^ 40 then (7, homeDie (key * 0x10000), key / 8 * 2 + key % 2)
  else
    let loc := (key - 2 ^ 40) * 0x1000
    if loc ≥ scratchBase then
      let b := (loc - scratchBase) / 0x1000
      (3, b / (272 * 64), b % (272 * 64))
    else (4, homeDie loc, (loc - 0x10000000000) % 0x2000000 / 0x1000)

/-- The frames and blocks that a slot owns, by their keys (R58, R169). -/
def State.ownedBy (s : State) (k : Nat) : List Nat := (s.store.owners.filter fun o => o.2 = k).map (·.1)

/-- The Pods that a lease of the slot held last (R119). -/
def State.podsOf (s : State) (k : Nat) : List ScrubUnit :=
  s.clusters.flatMap fun c => (c.podKey.filter fun p => p.2 = k).map fun p => (1, c.die, p.1)

/-- The empty hart slots that a hart or handler of the slot used last (R144). -/
def State.slotsOf (s : State) (k : Nat) : List ScrubUnit :=
  (s.harts.filter fun x => x.occ = .empty && x.base.key.toNat = k).map fun x =>
    (2, x.id.die, x.id.clu * 128 + x.id.core * 8 + x.id.slot)

/-- The L2 lines written last under the slot: of the lines of HBM that were, those that an L2 slice still holds. Which are held, and where, the
manual leaves to the part: free values (log 3). -/
def State.linesOf (s : State) (k : Nat) : List ScrubUnit :=
  ((s.store.lines.filter fun l => l.2 = k && Config.freeLane s.free l.1 % 2 = 1).map fun l =>
    (5, homeDie (l.1 * 64), Config.freeLane (s.free + 1) l.1 % 2 ^ 21)).eraseDups

/-- The Marrow entries of a cluster written last under the slot. Which of the 4,096 a captured carry takes, and which of them another slot has
taken since, the manual leaves to the part: free values (log 3). -/
def State.marrowUnits (s : State) (k : Nat) : List ScrubUnit :=
  (s.clusters.flatMap fun c =>
    let shared : Bool := c.marrow.any fun e => e.1 ≠ k && e.2 ≠ 0
    ((List.range (Table.get 0 c.marrow k)).filter fun i => !shared || Config.freeLane (s.free + 2) (c.clu * 4096 + i) % 2 = 1).map fun i =>
      (6, c.die, c.clu * 4096 + Config.freeLane (s.free + 3 + c.die) (c.clu * 4096 + i) % 4096)).eraseDups

/-- The order of the scrub map (R64). -/
def ScrubUnit.before (a b : ScrubUnit) : Bool :=
  a.1 < b.1 || (a.1 = b.1 && (a.2.1 < b.2.1 || (a.2.1 = b.2.1 && a.2.2 ≤ b.2.2)))

/-- Every unit that the release of a slot scrubs, in the order of R64. -/
def State.scrubUnits (s : State) (k : Nat) : List ScrubUnit :=
  (s.podsOf k ++ s.slotsOf k ++ (s.ownedBy k).map ownedUnit ++ s.linesOf k ++ s.marrowUnits k).mergeSort ScrubUnit.before

/-- The scrub map (R64). -/
def scrubMap (us : List ScrubUnit) : List Byte := us.flatMap fun u => toBytes 8 (u.1 + u.2.1 * 2 ^ 4 + u.2.2 * 2 ^ 6)

/-- How many units of a kind. -/
def unitCount (us : List ScrubUnit) (kind : Nat) : Nat := (us.filter fun u => u.1 = kind).length

/-- The storage of an owned frame or block is written with zeros and becomes free. -/
def scrubOwned (st : Store) (key : Nat) : Store :=
  let lo := if key < 2 ^ 40 then key * 0x10000 else (key - 2 ^ 40) * 0x1000
  let n := if key < 2 ^ 40 then 0x10000 else 0x1000
  ({ st with bytes := st.bytes.zero lo (lo + n), owners := Table.set freeOwner st.owners key freeOwner } : Store).untag lo n

/-- Steps 3 and 4 of R62; the instructions that caches hold of the slot go too (R161). -/
def State.scrubKey (s : State) (k : Nat) : State :=
  let slot (x : Hart) : Bool := x.occ = .empty && x.base.key.toNat = k
  let keys := s.ownedBy k
  let owned (loc : Nat) : Bool := keys.contains (ownerKey loc)
  let areas := (s.harts.filter slot).filter fun x => !x.id.mgmt
  let s := s.onStore fun st => areas.foldl (init := (s.ownedBy k).foldl scrubOwned st) fun st x =>
    ({ st with bytes := st.bytes.zero (contextLoc x.id) (contextLoc x.id + 0x1000) } : Store).untag (contextLoc x.id) 0x1000
  let s := s.mapHarts fun x => if slot x then Hart.reset x.id else x
  let mine := s.store.stale.filter fun e => e.key = k
  { s with
    store := { s.store with stale := s.store.stale.filter fun e => e.key ≠ k, lines := s.store.lines.filter fun l => l.2 ≠ k }
    cores := s.cores.map fun c => { c with l1 := c.l1.filter fun w => !(mine.any fun e => e.lo ≤ w.1 && w.1 < e.hi) && !owned w.1 }
    clusters := s.clusters.map fun c => { c with podKey := c.podKey.filter fun p => p.2 ≠ k, marrow := c.marrow.filter fun e => e.1 ≠ k }
    dies := s.dies.map fun d => { d with steward := { d.steward with pages := d.steward.pages.filter fun p => p.key ≠ k } }
    engines := { s.engines with runs := s.engines.runs.filter fun r => r.slot.toNat ≠ k } }

/-- Step 2 of R62: a final record of each range of the slot, then a checkpoint of its log. -/
def closeRanges (s : State) (k : Nat) : List Nat → State
  | [] => s
  | i :: is =>
    let r := s.range i
    closeRanges (if r.enable && r.owner.toNat = k then
      ((s.setRange i { r with enable := false, changed := false }).emitRange i r true).emitCheckpoint (i / 256) else s) k is

/-- Bytes 0 to 191 of the receipt (R63). -/
def receiptHead (k seq : Nat) (start finish : Word) (us : List ScrubUnit) (map : List Byte) : List Byte :=
  let n (kind width : Nat) : List Byte := toBytes width (unitCount us kind)
  toBytes 4 0x52435352 ++ toBytes 2 1 ++ toBytes 1 k ++ [0] ++ toBytes 8 seq ++ toBytes 8 start.toNat ++ toBytes 8 finish.toNat
    ++ devPub ++ sha512 map ++ n 1 4 ++ n 2 4 ++ n 3 4 ++ n 4 4 ++ n 5 8 ++ n 6 4 ++ n 7 4 ++ List.replicate 32 0

/-- Graphs are unbound, one after another. -/
def unbindAll (s : State) : List Attached → Res Unit
  | [] => .ok () s
  | a :: as => (s.unbind a.header).bind fun _ s => unbindAll s as

/-- The steps of R62, the slot's graphs unbound. -/
def State.releaseUnbound (s : State) (k buffer size : Nat) : MailReply :=
  let start := s.port.time
  let s := s.setKey k .releasing
  let s := closeRanges s k (s.store.ranges.map (·.1))
  let us := s.scrubUnits k
  let s := { s.scrubKey k with free := s.free + 8 }
  let s := s.setKey k .empty
  let s := { s with retained := { s.retained with releases := s.retained.releases + 1 } }
  let map := scrubMap us
  let head := receiptHead k s.retained.releases start s.port.time us map
  let bytes := head ++ signDigest head ++ toBytes 8 map.length
  if map.length ≤ size then .reply 0 bytes (s.writePhys 0 buffer map) else .reply 7 bytes s

/-- RELEASE of a slot that may be released. The slot's graphs are detached first, while their trace sessions can still be written
(R86, R272). It waits while the map's buffer is locked (R361). -/
def State.releaseKey (s : State) (k buffer size : Nat) : MailReply :=
  if s.firmwareHeld 0 buffer size then .waits s
  else match unbindAll s (s.engines.attached.filter fun a => a.slot.toNat = k) with
  | .ok _ s => s.releaseUnbound k buffer size
  | .trap _ _ s | .stall _ s => .waits s

/-- RELEASE (R61-R64). -/
def execRelease (s : State) : Out :=
  mailbox 2 s fun q =>
    let k := q.arg 0 1
    if !s.physOk (q.arg 8 8) 8 then s.fails badArg
    else if k = 0 ∨ !s.store.keyLoaded k then s.fails badSlot
    else if s.keyInUse k then s.fails 6
    else s.releaseKey k (q.arg 8 8) (q.arg 16 8)

/-! ### AUDSET, AUDLOG, CHECKPT (R65-R68) -/

/-- May a range be enabled: its die has an open log, no final record of it waits, and the one to be emitted finds room (R65,
R68)? A consumer word in host memory is waited for. -/
def State.mayEnable (s : State) (i : Nat) : Res Bool :=
  match (s.die (i / 256)).log with
  | none => .ok false s
  | some l =>
    if l.pending.any (AuditPending.isFinal i) then .ok false s
    else if !(s.range i).enable then .ok true s
    else if l.pending ≠ [] then .ok false s
    else s.logRoom (i / 256)

/-- AUDSET (R61, R65, R68). LIMIT is taken up to 2^44, one past the last package offset, so that a range can reach the end (log 38). -/
def execAudset (s : State) : Out :=
  mailbox 3 s fun q =>
    let i := q.arg 0 2
    let k := q.arg 2 1
    let en := q.arg 3 1
    let base := q.arg 8 8
    let limit := q.arg 16 8
    if i > 1023 ∨ en > 1 ∨ base % 0x10000 ≠ 0 ∨ limit % 0x10000 ≠ 0 ∨ limit ≤ base ∨ limit > 2 ^ 44 then s.fails badArg
    else match (if en = 1 then s.mayEnable i else .ok true s) with
      | .stall _ s => .waits s
      | .trap _ _ s | .ok false s => (s.logRead (i / 256)).fails badArg
      | .ok true s =>
        if k = 0 then (s.logRead (i / 256)).fails badSlot
        else
          let r := s.range i
          let s := if r.enable then s.emitRange i r true else s
          .reply 0 [] (s.setRange i ⟨BitVec.ofNat 8 k, en = 1, base, limit, Vector.replicate 10 0, 0, 0, false⟩)

/-- Is `n` a power of two from 64 to 2^20 (R68)? -/
def ringLength (n : Nat) : Bool := (List.range 15).any fun i => n = 2 ^ (i + 6)

/-- An open log gets its last checkpoint (R66). -/
def State.closeLog (s : State) (d : Nat) : State :=
  match (s.die d).log with
  | none => s
  | some l => if l.closing then s.drain d else (s.onLog d fun l => { l with closing := true }).emitCheckpoint d

/-- AUDLOG (R61, R65, R66, R68): it waits until the last checkpoint of an open log has found room. Records of ranges that still wait
pass to the new log (log 38). It waits while the new ring is locked (R361). -/
def execAudlog (s : State) : Out :=
  mailbox 4 s fun q =>
    let d := q.arg 0 1
    let us := q.arg 4 4
    if d > 3 ∨ us = 0 ∨ us > 1000000 ∨ !ringLength (q.arg 16 4) ∨ !s.physOk (q.arg 8 8) 256 ∨ !s.physOk (q.arg 24 8) 8 then
      s.fails badArg
    else
      let s := s.closeLog d
      let rest := match (s.die d).log with | some l => l.pending | none => []
      if rest.contains .checkpoint || s.firmwareHeld d (q.arg 8 8) 256 then .waits s
      else
        let l : AuditLog := ⟨us, s.cycle + us * 2400, q.arg 8 8, q.arg 16 4, q.arg 24 8, 0, [], 0, rest, false⟩
        let s := s.onDie d fun x => { x with log := some l }
        .reply 0 [] (s.putRecord d (auditRecord l d 2 0 0 (toBytes 8 s.port.time.toNat)))

/-- CHECKPT (R61, R65, R67). -/
def execCheckpt (s : State) : Out :=
  mailbox 5 s fun q =>
    let d := q.arg 0 1
    if d > 3 ∨ (s.die d).log.isNone then s.fails badArg else .reply 0 [] (s.emitCheckpoint d)

/-! ### ATTEST, IDENT (R69, R70) -/

/-- The wrap public key of this start (R69). -/
def State.wrapPub (s : State) : List Byte := x25519 (Config.wrapSecret s.retained.starts) [9]

/-- Bytes 0 to 191 of the quote (R70). -/
def State.quoteHead (s : State) (nonce : List Byte) : List Byte :=
  let retired := ((List.range 4).map fun d => ((s.die d).pods.filter fun p => p.2.retired).length).foldl (· + ·) 0
  toBytes 4 0x54514D5A ++ toBytes 2 1 ++ toBytes 2 s.pkgid.toNat ++ toBytes 8 s.port.time.toNat ++ nonce ++ fit 64 Config.firmwareDigest
    ++ toBytes 4 retired ++ toBytes 4 s.retained.starts ++ toBytes 4 Config.devFeat.toNat ++ toBytes 4 s.port.featmask.toNat
    ++ devPub ++ s.wrapPub

/-- ATTEST (R70). -/
def execAttest (s : State) : Out :=
  mailbox 6 s fun q =>
    let head := s.quoteHead (q.mbdata.readBytes 0 32)
    .reply 0 (head ++ signDigest head) s

/-- IDENT (R60, R69). -/
def execIdent (s : State) : Out :=
  mailbox 7 s fun _ =>
    let cert := Config.certificate.take 3960
    .reply 0 (devPub ++ s.wrapPub ++ signDigest (devPub ++ s.wrapPub) ++ toBytes 2 cert.length ++ List.replicate 6 0 ++ cert) s

end Sys2Proof.Machine
end

