-- ==== Sys2Proof/Machine/Messages.lean ====
section
/-! DEFINITION. Active messages on the side of the target (R146, R151-R154): arrival, the start of a handler, the
built-in handlers, the replies. -/

namespace Sys2Proof.Machine

/-- May a handler start (R146)? Every program slot that was ready at the last MRET has issued or has ceased to be ready since. -/
def State.handlerAllowed (s : State) (k : CoreId) : Bool := (s.core k).owed = []

/-- MESSAGE_ARRIVE (R151): the first message on its way enters the queue, unless a link holds it back (R32, R36). -/
def execMessageArrive (k : CoreId) (s : State) : Out :=
  match (s.core k).wire with
  | [] => .next s
  | m :: ms => if s.trafficHeld m.sender.die k.die then .next s
    else .next (s.onCore k fun c => { c with wire := ms, queue := c.queue ++ [m] })

/-! ### The start of a handler (R152) -/

/-- Where the handler of a message begins (R152); the built-in ones have no program. -/
def handlerEntry (m : Message) (k : CoreId) (s : State) : Res Word :=
  if m.hnd.toNat < 16 then .ok 0 s
  else if m.mhbase = 0 then .trap 0x05 0 s
  else
    let va := m.mhbase + BitVec.ofNat 64 (8 * (m.hnd.toNat - 16))
    (readMem s (m.entryCx k) va 8 .plain).bind fun e s =>
      if e % 4 ≠ 0 then .trap 0x04 (BitVec.ofNat 64 e) s else .ok (BitVec.ofNat 64 e) s

/-- Slot 7 at the start of a handler in cycle `now` (R152): it is ready in the second cycle after it (R151). Its entry may still have to be
read. -/
def Hart.startHandler (x : Hart) (m : Message) (entry : Option Word) (uid now : Nat) : Hart :=
  let y := x.cleared
  let y := { y with
    uid := uid, occ := .running, handler := some ⟨m, 0, entry.isNone, now + 2⟩
    base := { y.base with pc := entry.getD 0, level := if m.sup then .supervisor else .user, key := m.kslot, ptroot := m.ptroot, feat := m.feat }
    lease := { y.lease with pri := 7 } }
  let y := (List.range 6).foldl (init := y) fun y i => y.setGr (BitVec.ofNat 5 (i + 1)) (m.p.toList.getD i 0)
  (y.setGr 7 m.word0).setGr 8 m.tokaddr

/-- The failure of the handler of a message (R153). -/
def Message.failure (m : Message) (cause die : Nat) : Reply :=
  ⟨m.uid, BitVec.ofNat 64 (cause % 256 + m.hnd.toNat * 256), true, m.reply, die⟩

/-- HANDLER_START (R146, R151, R152): the message at the head leaves the queue and its handler stands in slot 7, where it may wait for its
entry (R153); or it fails at once (R153). -/
def execHandlerStart (k : CoreId) (s : State) : Out :=
  match (s.core k).queue with
  | [] => .next s
  | m :: ms =>
    if (s.hart k.messageSlot).occ ≠ .empty || !s.handlerAllowed k || s.hardwareHeld k.die (contextLoc k.messageSlot) 128 then .next s
    else
      let left (s : State) : State := s.onCore k fun c => { c with queue := ms }
      let start (e : Option Word) (s : State) : State :=
        { ((left s).onHart k.messageSlot (fun x => x.startHandler m e s.nextUid s.cycle)).zeroFrames k.messageSlot with nextUid := s.nextUid + 1 }
      match handlerEntry m k s with
      | .stall _ s' => .next (start none (s.keepRequests s'))
      | .trap c _ s' => .next { (left s').overLink k.die m.sender.die with replies := s'.replies ++ [m.failure c k.die] }
      | .ok e s' => .next (start (some e) s')

/-- The handler in slot 7 reads its entry, once it may (R152, R153). -/
def State.readEntry (s : State) (k : CoreId) (m : Message) : State :=
  match handlerEntry m k s with
  | .stall _ s' => s.keepRequests s'
  | .trap c _ s' => ((s'.clearAnswers (entryReader k)).focus k.messageSlot).handlerFails c
  | .ok e s' => (s'.clearAnswers (entryReader k)).onHart k.messageSlot fun x =>
      { x with base := { x.base with pc := e }, handler := x.handler.map fun h => { h with pending := false } }

/-- HANDLER_OVERRUN (R153): 256 instructions have issued and none was MRET. -/
def execHandlerOverrun (k : CoreId) (s : State) : Out :=
  let s := s.focus k.messageSlot
  match s.cur.handler with
  | some h => if h.issued < 256 then .next s else .next (s.handlerFails 0x0B)
  | none => .next s

/-! ### Replies (R152, R153) -/

/-- A reply reaches its hart: EVR, EVL.REPLY or EVL.MFAULT, OUT. -/
def Hart.takeReply (x : Hart) (r : Reply) : Hart :=
  if x.occ = .cancelled ∨ x.occ = .empty then x
  else
    let y := { x with ev := { x.ev with evr := r.value, out := if r.awaited then x.ev.out - 1 else x.ev.out } }
    y.latch (if r.failed then 2 else 1)

/-- REPLY_ARRIVE (R152, R156): the first reply for the hart of a slot, in it or pre-empted from it, that no link holds back (R32, R36). A reply
whose hart has gone is discarded. -/
def execReplyArrive (h : HartId) (s : State) : Out :=
  let s := s.focus h
  let here (r : Reply) : Bool := s.cur.occ ≠ .empty && r.uid = s.cur.uid
  let parked (r : Reply) : Bool := s.engines.parked.any fun x => x.id = h && x.uid = r.uid
  let gone (r : Reply) : Bool := (s.byUid r.uid).isNone && !(s.engines.parked.any fun x => x.uid = r.uid)
  match s.replies.find? fun r => (here r || parked r || gone r) && !s.trafficHeld r.die h.die with
  | none => .next s
  | some r =>
    let s := { s with replies := s.replies.erase r }
    if here r then .next (s.onCur (·.takeReply r))
    else .next (s.onEngines fun e => { e with parked := e.parked.map fun x => if x.uid = r.uid then x.takeReply r else x })

/-! ### Built-in handlers (R154) -/

/-- A built-in handler of a number in slot 7: its work, then the actions of MRET; or its failure, or its stall. -/
def builtinHandler (k : CoreId) (hnd : Nat) (s : State) (body : Message → Ctx → State → Res Word) : Out :=
  let s := s.focus k.messageSlot
  let who := s.cur.uid * 4
  match s.cur.handler with
  | none => .next s
  | some h =>
    if h.msg.hnd.toNat ≠ hnd then .next s
    else
      let r := (body h.msg { s.cur.cx with keep := true } s).bind fun v s =>
        if h.msg.tok then
          (tokenSpot s s.cur.cx h.msg.tokaddr).bind fun p s =>
            .ok () ((s.sendTokens s.cur.id.die p.loc 1).endHandler h v)
        else .ok () (s.endHandler h v)
      match r with
      | .ok _ s => .next (s.clearAnswers who)
      | .trap c _ s => .next ((s.clearAnswers who).handlerFails c)
      | .stall w s' => .next ((s.keepRequests s').stalled w)

/-- Word `i` of the payload. -/
def Message.pay (m : Message) (i : Nat) : Word := m.p.toList.getD i 0

/-- The 8-byte forms need an address aligned to 8 (R154). -/
def aligned8 (va : Word) (s : State) (go : State → Res Word) : Res Word :=
  if va.toNat % 8 ≠ 0 then .trap 0x04 va s else go s

/-- A read-modify-write of 8 bytes at P0 that replies with the old value. -/
def builtinUpdate (k : CoreId) (hnd : Nat) (o : Order) (s : State) (f : Message → Nat → Option Nat) : Out :=
  builtinHandler k hnd s fun m cx s => aligned8 (m.pay 0) s fun s =>
    (updateMem s cx (m.pay 0) 8 o (f m)).bind fun v s => .ok (BitVec.ofNat 64 v) s

/-- PING (R154). -/
def execPing (k : CoreId) (s : State) : Out := builtinHandler k 0 s fun _ _ s => .ok 0 s

/-- RD (R154). -/
def execRd (k : CoreId) (s : State) : Out :=
  builtinHandler k 1 s fun m cx s => aligned8 (m.pay 0) s fun s =>
    (readMem s cx (m.pay 0) 8 .plain).bind fun v s => .ok (BitVec.ofNat 64 v) s

/-- WR (R154). -/
def execWr (k : CoreId) (s : State) : Out :=
  builtinHandler k 2 s fun m cx s => aligned8 (m.pay 0) s fun s =>
    (writeMem s cx (m.pay 0) 8 (m.pay 1).toNat .plain).bind fun _ s => .ok 0 s

/-- AADD (R154). -/
def execAadd (k : CoreId) (s : State) : Out :=
  builtinUpdate k 3 .plain s fun m old => some ((BitVec.ofNat 64 old + m.pay 1).toNat)

/-- SWAP (R154). -/
def execSwap (k : CoreId) (s : State) : Out := builtinUpdate k 4 .plain s fun m _ => some (m.pay 1).toNat

/-- CAS (R154). -/
def execCasBuiltin (k : CoreId) (s : State) : Out :=
  builtinUpdate k 5 Order.plain.forCas s fun m old => if old = (m.pay 1).toNat then some (m.pay 2).toNat else none

/-- Copy bytes in ascending order (R154). -/
def copyBytes (s : State) (cx : Ctx) (src dst : Word) : Nat → Res Unit
  | 0 => .ok () s
  | n + 1 => (readMem s cx src 1 .plain).bind fun v s =>
    (writeMem s cx dst 1 v .plain).bind fun _ s => copyBytes s cx (src + 1) (dst + 1) n

/-- COPY (R154). -/
def execCopy (k : CoreId) (s : State) : Out :=
  builtinHandler k 6 s fun m cx s =>
    let n := (m.pay 2).toNat
    if n = 0 ∨ n > 4096 then .trap 0x04 (m.pay 2) s
    else (copyBytes s cx (m.pay 0) (m.pay 1) n).bind fun _ s => .ok (m.pay 2) s

/-- SWBUMP (R154, R181). -/
def execSwbump (k : CoreId) (s : State) : Out :=
  builtinHandler k 7 s fun m cx s => (syncArrive s cx (m.pay 0) (m.pay 1).toNat).bind fun _ s => .ok 0 s

/-- EVSET (R154, R156). -/
def execEvset (k : CoreId) (s : State) : Out :=
  builtinHandler k 8 s fun m _ s =>
    let n := (m.pay 0).toNat % 8
    let h : HartId := ⟨k.die, k.clu, k.core, n⟩
    let x := s.hart h
    if n = 7 ∨ x.occ = .empty ∨ x.base.key ≠ m.kslot then .ok 0 s
    else .ok 0 (s.onHart h fun x => x.latch 32)

end Sys2Proof.Machine
end

