-- ==== Sys2Proof/Machine/ScalarFp.lean ====
section
/-! DEFINITION. Scalar floating point (R320-R325). -/

namespace Sys2Proof.Machine

/-- The format of the P field (R320). -/
def fpFmt (p : BitVec 1) : Fmt := if p = 1 then .f64 else .f32

/-- The rounding mode of a field: FRM for 7 (R245). -/
def Hart.mode (x : Hart) (r : BitVec 3) : Nat := if r = 7 then x.fp.frm.toNat else r.toNat

/-- An operand: bits [31:0] or all of the register (R241). -/
def State.fpVal (s : State) (f : Fmt) (r : Gpr) : Val := valOf f ((s.g r).toNat % 2 ^ f.width)

/-- Write a result and OR its flags into FLAGS as the instruction retires (R250, R320). -/
def State.putFp (s : State) (d : Gpr) (r : Nat × FlagSet) : State := (s.sflags r.2).put d (BitVec.ofNat 64 r.1)

/-- An operation that rounds (R320, R321). -/
def fpRound (i : Instr) (d : Gpr) (r : BitVec 3) (p : BitVec 1) (op : State → Nat → Fmt → Exact) (s : State) : Out :=
  scalar i s fun s =>
    let f := fpFmt p
    let rm := s.cur.mode r
    .ok () (s.putFp d (deliver f rm (op s rm f)))

/-- FADD (R321). -/
def execFadd (d a b : Gpr) (r : BitVec 3) (p : BitVec 1) (s : State) : Out :=
  fpRound (.fadd d a b r p) d r p (fun s rm f => addV rm (s.fpVal f a) (s.fpVal f b)) s

/-- FSUB (R321). -/
def execFsub (d a b : Gpr) (r : BitVec 3) (p : BitVec 1) (s : State) : Out :=
  fpRound (.fsub d a b r p) d r p (fun s rm f => addV rm (s.fpVal f a) (s.fpVal f b).neg) s

/-- FMUL (R321). -/
def execFmul (d a b : Gpr) (r : BitVec 3) (p : BitVec 1) (s : State) : Out :=
  fpRound (.fmul d a b r p) d r p (fun s _ f => mulV (s.fpVal f a) (s.fpVal f b)) s

/-- FDIV (R321). -/
def execFdiv (d a b : Gpr) (r : BitVec 3) (p : BitVec 1) (s : State) : Out :=
  fpRound (.fdiv d a b r p) d r p (fun s _ f => divV (precOf f) (s.fpVal f a) (s.fpVal f b)) s

/-- FSQRT (R321). -/
def execFsqrt (d a : Gpr) (r : BitVec 3) (p : BitVec 1) (s : State) : Out :=
  fpRound (.fsqrt d a r p) d r p (fun s _ f => sqrtV (precOf f) (s.fpVal f a)) s

/-- FMA (R324). -/
def execFma (d a b c : Gpr) (r : BitVec 3) (p : BitVec 1) (s : State) : Out :=
  fpRound (.fma d a b c r p) d r p (fun s rm f => fmaV rm (s.fpVal f a) (s.fpVal f b) (s.fpVal f c)) s

/-- FMIN (R253, R321). -/
def execFmin (d a b : Gpr) (p : BitVec 1) (s : State) : Out :=
  scalar (.fmin d a b p) s fun s => .ok () (s.putFp d (minMaxEnc (fpFmt p) false (s.g a).toNat (s.g b).toNat))

/-- FMAX (R253, R321). -/
def execFmax (d a b : Gpr) (p : BitVec 1) (s : State) : Out :=
  scalar (.fmax d a b p) s fun s => .ok () (s.putFp d (minMaxEnc (fpFmt p) true (s.g a).toNat (s.g b).toNat))

/-- FCMP (R322). -/
def execFcmp (d a b : Gpr) (p : BitVec 1) (c : BitVec 2) (s : State) : Out :=
  scalar (.fcmp d a b p c) s fun s =>
    let r := compareV c.toNat (s.fpVal (fpFmt p) a) (s.fpVal (fpFmt p) b)
    .ok () (s.putFp d (r.1.toNat, r.2))

/-- FCLASS (R323). -/
def execFclass (d a : Gpr) (p : BitVec 1) (s : State) : Out :=
  scalar (.fclass d a p) s fun s =>
    let f := fpFmt p
    .ok () (s.put d (BitVec.ofNat 64 (2 ^ classOf f ((s.g a).toNat % 2 ^ f.width))))

/-- What FCVT writes to the register (R325): an I32 result copies bit 31 upwards when U = 0. -/
def fcvtWord (dst : Fmt) (unsigned : Bool) (b : Nat) : Word :=
  if dst = .i32 ∧ !unsigned then wordOf (sextOf b 32) else BitVec.ofNat 64 b

/-- FCVT (R254, R325). -/
def execFcvt (d a : Gpr) (u : BitVec 1) (src dst : BitVec 4) (r : BitVec 3) (s : State) : Out :=
  scalar (.fcvt d a u src dst r) s fun s =>
    match Fmt.ofCode src.toNat, Fmt.ofCode dst.toNat with
    | some x, some y =>
      let c := convert x y (s.cur.mode r) (u = 1) ((s.g a).toNat % 2 ^ x.width)
      .ok () ((s.sflags c.2).put d (fcvtWord y (u = 1) c.1))
    | _, _ => illegal (.fcvt d a u src dst r) s

end Sys2Proof.Machine
end

