-- ==== Sys2Proof/Machine/Steward.lean ====
section
/-! DEFINITION. The page steward (R183-R186): frames of the ring, eviction, the copy of a page, its failures. -/

namespace Sys2Proof.Machine

/-! ### Pages -/

/-- Copy `n` bytes of the memory from one place to another that holds zeros. -/
def Mem.copyRange (m : Mem) (src dst n : Nat) : Mem :=
  (m.filter fun c => src ≤ c.1 && c.1 < src + n).foldl (init := m) fun m c => m.write (c.1 - src + dst) c.2

/-- A whole frame is written under a key slot, which claims it (R58): counted (R65), links (R359), tags (R274). -/
def State.fillFrame (s : State) (loc key : Nat) (f : Mem → Mem) : State :=
  ((s.overwrite loc 0x10000 key fun b => f (b.zero loc (loc + 0x10000))).onStore fun st =>
    { st with owners := Table.set freeOwner st.owners (ownerKey loc) key }).audit 4 true loc 0x10000

/-- Change a steward. -/
def State.onSteward (s : State) (d : Nat) (f : Steward → Steward) : State :=
  s.onDie d fun x => { x with steward := f x.steward }

/-- The name under which a steward reads host memory. -/
def stewardName (d : Nat) : Nat := 2 ^ 41 + d

/-- The context of a steward's accesses (R65). -/
def stewardCx (d key : Nat) : Ctx := { engineCtx d key 0 with who := stewardName d }

/-- Write a leaf. -/
def State.writeLeaf (s : State) (leaf v : Nat) : State := s.rawWrite leaf 8 v

/-- A frame is written with zeros and becomes free (R58). -/
def State.freeFrame (s : State) (frame : Nat) : State :=
  (s.overwrite frame 0x10000 0 fun b => b.zero frame (frame + 0x10000)).onStore fun st =>
    { st with owners := Table.set freeOwner st.owners (ownerKey frame) freeOwner }

/-- Where the data of a page that is not present lies (R172); none for a place that is no frame of this package's HBM and
no block of host memory (R183). -/
def originOf (s : State) (entry : Nat) : Option Nat :=
  let loc := bitsOf entry 43 16 * 0x10000
  if bitsOf entry 55 44 = s.pkgid.toNat ∧ (spaceOf loc = .hbm ∨ spaceOf loc = .host) then some loc else none

/-! ### The ring (R184) -/

/-- The package offset of entry `i` of the ring. -/
def Steward.entryLoc (w : Steward) (i : Nat) : Nat :=
  bitsOf w.ring.toNat 43 12 * 0x1000 + 8 * (i % 2 ^ (w.ring.toNat % 32))

/-- The frame that entry `i` of the ring names, if it is a free HBM frame (R183 step 2). The ring is read under key slot
0; an entry that it may not read names none (log 20). -/
def State.ringFrame (s : State) (d i : Nat) : Option Nat :=
  let w := (s.die d).steward
  let p : Spot := ⟨w.entryLoc i, 0, 2⟩
  if bitsOf w.ring.toNat 55 44 ≠ s.pkgid.toNat ∨ (s.check p 8 false).isSome ∨ spaceOf p.loc = .host then none
  else
    let v := s.peek p 8
    let loc := v % 2 ^ 44
    if v / 2 ^ 44 = s.pkgid.toNat ∧ v % 0x10000 = 0 ∧ spaceOf loc = .hbm ∧ s.store.ownerOf loc = freeOwner then some loc
    else none

/-- The read of entry `i` of the ring is counted (R65), if it is made. -/
def State.auditRing (s : State) (d i : Nat) : State :=
  let w := (s.die d).steward
  let p : Spot := ⟨w.entryLoc i, 0, 2⟩
  if bitsOf w.ring.toNat 55 44 ≠ s.pkgid.toNat ∨ (s.check p 8 false).isSome then s else s.audit 4 false p.loc 8

/-- Take a frame from the ring; entries that are no free HBM frames are discarded and counted in BADFR. -/
def takeRingFrame (s : State) (d : Nat) : Nat → Option Nat × State
  | 0 => (none, s)
  | fuel + 1 =>
    let w := (s.die d).steward
    if !w.enabled ∨ w.head = w.tail then (none, s)
    else
      let s' := (s.auditRing d w.head.toNat).onSteward d fun w => { w with head := w.head + 1 }
      match s.ringFrame d w.head.toNat with
      | some f => (some f, s')
      | none => takeRingFrame (s'.onSteward d fun w => { w with badfr := satAdd w.badfr 1 }) d fuel

/-- A frame goes back to the ring (R183): the entry before HEAD names it again. -/
def State.returnFrame (s : State) (d frame : Nat) : State :=
  let w := (s.die d).steward
  if w.enabled then
    let s := s.onSteward d fun w => { w with head := w.head - 1 }
    let w := (s.die d).steward
    let p : Spot := ⟨w.entryLoc w.head.toNat, 0, 2⟩
    if (s.check p 8 true).isSome then s else s.performWrite (stewardCx d 0) p 8 (frame + s.pkgid.toNat * 2 ^ 44) .plain
  else s

/-! ### Eviction (R186) -/

/-- The addresses that the current element of a copy entry touches. -/
def CopyEntry.places (e : CopyEntry) : List Word :=
  (match e.source with | some q => [q.virt (q.idx.toNat + e.done)] | none => []) ++ [e.dest.virt (e.dest.idx.toNat + e.done)]

/-- The addresses of the traffic of a hart's queues: the current element of each entry that may run (R186). -/
def Hart.traffic (x : Hart) : List Word :=
  let first (es : List CopyEntry) : List Word := match es with
    | e :: _ => if x.qs.ready e.after then e.places else []
    | [] => []
  first x.qs.cq0 ++ first x.qs.cq1 ++ (match x.qs.xq with
    | e :: _ => if e.kind ≠ .signal ∧ x.qs.ready e.after then [e.here + BitVec.ofNat 64 e.done] else []
    | [] => [])

/-- The package offset of the far side of fabric traffic that is performed in this package (R186). -/
def Hart.farTraffic (x : Hart) (pkg : Nat) : Option Nat :=
  match x.qs.xq with
  | e :: _ => if e.kind ≠ .signal ∧ x.qs.ready e.after ∧ e.remote.toNat / 2 ^ 44 = pkg then some (e.remote.toNat % 2 ^ 44 + e.done) else none
  | [] => none

/-- Does an address lie in a steward's page? -/
def StewardPage.holds (p : StewardPage) (root : BitVec 56) (va : Nat) : Bool := root = p.ptroot && va / 0x10000 = p.va / 0x10000

/-- Is copy, fabric or trace traffic in flight at a page (R186)? -/
def State.inFlight (s : State) (p : StewardPage) : Bool :=
  ((s.harts ++ s.engines.parked).any fun x =>
      (x.traffic.any fun va => p.holds x.base.ptroot va.toNat)
        || (x.farTraffic s.pkgid.toNat).any fun loc => loc / 0x10000 = p.frame / 0x10000)
    || s.dies.any fun d => d.traces.any fun t => (t.closing || (t.en && (!t.staged.isEmpty || t.opening.isSome)))
      && ((p.holds t.ptroot (t.at_ 0).toNat)
        || !t.staged.isEmpty && (p.holds t.ptroot (t.at_ (64 + 32 * t.wpos)).toNat
          || p.holds t.ptroot (t.at_ (64 + 32 * (t.wpos + t.staged.length) - 1)).toNat))

/-- Does a page hold a place in an output range of a node that is PLACING or RUNNING (R78, R186)? -/
def State.isOutput (s : State) (p : StewardPage) : Bool :=
  s.engines.runs.any fun r => r.ptroot = p.ptroot && (r.state = .placing || r.state = .running) && r.failure.isNone
    && r.outputs.any fun o => o.1 < (p.va / 0x10000 + 1) * 0x10000 && p.va / 0x10000 * 0x10000 < o.1 + o.2

/-- Does the lock of R361 hold a line that the eviction of a page writes? -/
def State.evictionLocked (s : State) (p : StewardPage) : Bool :=
  let on (loc n : Nat) : Bool := s.lockedFor (stewardName 0) loc n
  on p.leaf 8 || on p.frame 0x10000 || on p.origin 0x10000

/-- May the steward evict a page (R186)? Its leaf must still be the one the steward wrote; a write to a locked line waits (R361). -/
def State.evictable (s : State) (p : StewardPage) : Bool :=
  let e := s.store.bytes.readN p.leaf 8
  bitsOf e 1 0 = 3 && bitsOf e 8 8 = 1 && bitsOf e 43 16 * 0x10000 = p.frame && bitsOf e 9 9 = 0
    && !s.evictionLocked p && !s.inFlight p && !s.isOutput p && !(s.engines.directory.any fun b => b.1 / 0x10000 = p.frame / 0x10000)

/-- Copy a page back to its origin, under its key slot (R186 step 2); a refused write is dropped (log 20). -/
def State.copyBack (s : State) (p : StewardPage) : State :=
  let o : Spot := ⟨p.origin, p.key, 2⟩
  match s.ownerCheck o true with
  | some _ => s
  | none =>
    let s := s.audit 4 false p.frame 0x10000
    if spaceOf p.origin = .host then
      s.post (.write (s.port.bus p.origin) 0x10000 (s.store.bytes.readN p.frame 0x10000))
    else
      s.fillFrame p.origin p.key fun b => b.copyRange p.frame p.origin 0x10000

/-- The steps of an eviction (R186). The leaf keeps its other bits, A, D and the permissions among them, of which the rule says nothing
(DEDUCED, log 34). -/
def State.evict (s : State) (d : Nat) (p : StewardPage) : State :=
  let e := s.store.bytes.readN p.leaf 8
  let s := s.onStore fun st => { st with tlb := st.tlb.filter fun t => !tlbiCovers 0 p.ptroot p.va t }
  let s := s.tracesRemapped (tlbiCoversPage s 0 p.ptroot p.va)
  let s := if bitsOf e 7 7 = 1 then s.copyBack p else s
  let e' := e - bitsOf e 55 16 * 2 ^ 16 - 1 + (p.origin + s.pkgid.toNat * 2 ^ 44)
  ((s.writeLeaf p.leaf e').freeFrame p.frame).onSteward d fun w =>
    { w with evict := satAdd w.evict 1, pages := w.pages.erase p }

/-- The pages a steward can keep (R183). -/
def stewardLimit : Nat := 1048576

/-- A frame for a service: from the ring, else by an eviction (R183 step 2, R186); a steward that keeps as many pages as it can
evicts one (log 34). -/
def State.takeFrame (s : State) (d : Nat) : Option Nat × State :=
  match if (s.die d).steward.pages.length < stewardLimit then takeRingFrame s d (2 ^ 20 + 1) else (none, s) with
  | (some f, s) => (some f, s)
  | (none, s) => match (s.die d).steward.pages.find? s.evictable with
    | some p => (some p.frame, s.evict d p)
    | none => (none, s)

/-! ### Services (R183) -/

/-- The service of a leaf ends. -/
def State.endService (s : State) (d leaf : Nat) : State :=
  s.onSteward d fun w => { w with services := w.services.filter fun v => v.leaf ≠ leaf }

/-- The service fails with a cause: the leaf stands as before, the frame is free and back in the ring, every access that
waits takes the fault. -/
def State.failService (s : State) (d : Nat) (v : Service) (frame cause : Nat) : State :=
  let s := ((s.writeLeaf v.leaf (v.entry - bitsOf v.entry 9 9 * 0x200)).freeFrame frame).returnFrame d frame
  (s.onStore fun st => { st with failed := st.failed ++ v.waiters.map fun w => (w, v.leaf, cause) }).endService d v.leaf

/-- The copy arrives in the frame: the record, the leaf, the end of the service (R183 steps 3 to 5). -/
def State.installPage (s : State) (d : Nat) (v : Service) (origin frame : Nat) (bytes : Mem → Mem) : State :=
  let key := bitsOf v.entry 63 56
  let s := s.fillFrame frame key bytes
  let e := bitsOf v.entry 5 0 - bitsOf v.entry 0 0 + 1 + 0x100 + frame + s.pkgid.toNat * 2 ^ 44 + key * 2 ^ 56
  ((s.writeLeaf v.leaf e).onSteward d fun w =>
    { w with serv := satAdd w.serv 1
             pages := (w.pages ++ [⟨v.leaf, origin, frame, key, v.ptroot, v.va⟩]) }).endService d v.leaf

/-- A service with a frame: the origin is read under the leaf's key, the page installed, or the service fails (R183); under a key slot that
is not LOADED the frame may not be written (R56). -/
def State.serve (s : State) (d : Nat) (v : Service) (frame : Nat) : Res Unit :=
  let key := bitsOf v.entry 63 56
  match originOf s v.entry with
  | none => .ok () (s.failService d v frame 0x05)
  | some o =>
    match s.check ⟨o, key, 2⟩ 0x10000 false with
    | some c => .ok () (s.failService d v frame c)
    | none =>
      if !s.store.keyLoaded key then .ok () (s.failService d v frame 0x06)
      else
      if spaceOf o = .host then
        match s.hostRead (stewardCx d key) 0 ⟨o, key, 2⟩ 0x10000 with
        | .stall w s => .stall w s
        | .trap c _ s => .ok () ((s.clearAnswers (stewardName d)).failService d v frame c)
        | .ok n s => .ok () ((s.clearAnswers (stewardName d)).installPage d v o frame fun m => m.writeN frame 0x10000 n)
      else
        let s := s.audit 4 false o 0x10000
        let free : Bool := s.store.ownerOf o = freeOwner
        .ok () (s.installPage d v o frame fun m => if free then m else m.copyRange o frame 0x10000)

/-- One try at a service (R183, R186), once its leaf's line is not locked (R361). A leaf that software has changed under BUSY is
unpredictable, and so are the page's contents: free values. -/
def State.tryService (s : State) (d : Nat) (v : Service) : State :=
  if s.lockedFor (stewardName d) v.leaf 8 then s
  else if s.store.bytes.readN v.leaf 8 ≠ (v.entry ||| 0x200) then
    let page := match originOf s v.entry with | some o => if spaceOf o = .hbm then (List.range 0x10000).map (o + ·) else [] | none => []
    (s.blur ((List.range 8).map (v.leaf + ·) ++ page)).endService d v.leaf
  else match s.takeFrame d with
    | (none, s) => s.onSteward d fun w => { w with
        waits := if v.waiting then w.waits else satAdd w.waits 1
        services := w.services.map fun x => if x.leaf = v.leaf then { x with waiting := true } else x }
    | (some f, s') => match s'.serve d v f with
      | .ok _ s' => s'
      | .trap _ _ s' => s'
      | .stall _ s' => { s with port := { s.port with requests := s'.port.requests, answers := s'.port.answers } }

/-- STEWARD_SERVICE_DONE (R183, R185): the first service of the die that does not wait for a frame is done, or fails, or
finds no frame, or waits for host memory. -/
def execStewardServiceDone (die : Nat) (s : State) : Out :=
  match (s.die die).steward.services.find? fun v => !v.waiting with
  | some v => .next (s.tryService die v)
  | none => .next s

/-- STEWARD_RETRY (R186): the first service that waits for a frame tries again. -/
def execStewardRetry (die : Nat) (s : State) : Out :=
  match (s.die die).steward.services.find? fun v => v.waiting with
  | some v => .next (s.tryService die v)
  | none => .next s

/-- STWTAIL_WRITE (R184). -/
def execStwtailWrite (die : Nat) (v : Word) (s : State) : Out := .next (s.onSteward die fun w => w.writeTail v)

/-- STWRING_WRITE (R184). -/
def execStwringWrite (die : Nat) (v : Word) (s : State) : Out := .next (s.onSteward die fun w => w.writeRing v)

end Sys2Proof.Machine
end

