-- ==== Sys2Proof/Machine/VectorInt.lean ====
section
/-! DEFINITION. Integer vector arithmetic (R330), integer compares and mask logic (R339-R342), moves and permutes
(R343-R348), integer reductions (R349), and the control words VBAR, VNOP, VSTOP (R159, R162). -/

namespace Sys2Proof.Machine

/-! ### Integer arithmetic (R330) -/

/-- An integer instruction of R330: `op` takes the width and the patterns of A, B and E. -/
def intVec (i : Instr) (f : VFields) (op : Nat → Nat → Nat → Nat → Nat) (s : State) : Out :=
  vectorPure i s fun s =>
    let w := (fmtOf f).width
    let va := s.v f.a
    let ve := s.v f.e
    s.eachV f w w fun g e => (op w (g.el va w e) (s.operandB g f w e) (g.el ve w e), 0)

/-- Saturating signed result (R263, R330). -/
def satS (w : Nat) (x : Int) : Nat := wrapTo (satTo x w true) w

/-- Saturating unsigned result (R263, R330). -/
def satU (w : Nat) (x : Int) : Nat := wrapTo (satTo x w false) w

/-- VADD (R330). -/
def execVadd (f : VFields) (s : State) : Out := intVec (.vadd f) f (fun _ a b _ => a + b) s

/-- VSUB (R330). -/
def execVsub (f : VFields) (s : State) : Out := intVec (.vsub f) f (fun w a b _ => wrapTo ((a : Int) - b) w) s

/-- VMUL (R330). -/
def execVmul (f : VFields) (s : State) : Out := intVec (.vmul f) f (fun _ a b _ => a * b) s

/-- VMULH (R330). -/
def execVmulh (f : VFields) (s : State) : Out := intVec (.vmulh f) f (fun w a b _ => wrapTo (sextOf a w * sextOf b w / 2 ^ w) w) s

/-- VMULHU (R330). -/
def execVmulhu (f : VFields) (s : State) : Out := intVec (.vmulhu f) f (fun w a b _ => a * b / 2 ^ w) s

/-- VMAD (R330). -/
def execVmad (f : VFields) (s : State) : Out := intVec (.vmad f) f (fun _ a b c => a * b + c) s

/-- VMIN (R330). -/
def execVmin (f : VFields) (s : State) : Out := intVec (.vmin f) f (fun w a b _ => if sextOf a w ≤ sextOf b w then a else b) s

/-- VMAX (R330). -/
def execVmax (f : VFields) (s : State) : Out := intVec (.vmax f) f (fun w a b _ => if sextOf a w ≤ sextOf b w then b else a) s

/-- VMINU (R330). -/
def execVminu (f : VFields) (s : State) : Out := intVec (.vminu f) f (fun _ a b _ => min a b) s

/-- VMAXU (R330). -/
def execVmaxu (f : VFields) (s : State) : Out := intVec (.vmaxu f) f (fun _ a b _ => max a b) s

/-- VAND (R330). -/
def execVand (f : VFields) (s : State) : Out := intVec (.vand f) f (fun _ a b _ => a &&& b) s

/-- VOR (R330). -/
def execVor (f : VFields) (s : State) : Out := intVec (.vor f) f (fun _ a b _ => a ||| b) s

/-- VXOR (R330). -/
def execVxor (f : VFields) (s : State) : Out := intVec (.vxor f) f (fun _ a b _ => a ^^^ b) s

/-- VANDN (R330). -/
def execVandn (f : VFields) (s : State) : Out := intVec (.vandn f) f (fun _ a b _ => a ^^^ (a &&& b)) s

/-- VSHL (R330). -/
def execVshl (f : VFields) (s : State) : Out := intVec (.vshl f) f (fun w a b _ => a * 2 ^ (b % w)) s

/-- VSHR (R330). -/
def execVshr (f : VFields) (s : State) : Out := intVec (.vshr f) f (fun w a b _ => a / 2 ^ (b % w)) s

/-- VSAR (R330). -/
def execVsar (f : VFields) (s : State) : Out := intVec (.vsar f) f (fun w a b _ => wrapTo (sextOf a w / 2 ^ (b % w)) w) s

/-- VADDS (R330). -/
def execVadds (f : VFields) (s : State) : Out := intVec (.vadds f) f (fun w a b _ => satS w (sextOf a w + sextOf b w)) s

/-- VSUBS (R330). -/
def execVsubs (f : VFields) (s : State) : Out := intVec (.vsubs f) f (fun w a b _ => satS w (sextOf a w - sextOf b w)) s

/-- VADDSU (R330). -/
def execVaddsu (f : VFields) (s : State) : Out := intVec (.vaddsu f) f (fun w a b _ => satU w ((a : Int) + b)) s

/-- VSUBSU (R330). -/
def execVsubsu (f : VFields) (s : State) : Out := intVec (.vsubsu f) f (fun w a b _ => satU w ((a : Int) - b)) s

/-- VABS (R330). -/
def execVabs (f : VFields) (s : State) : Out := intVec (.vabs f) f (fun w a _ _ => (sextOf a w).natAbs) s

/-! ### Compares (R339) -/

/-- The condition of VCMP (R339). -/
def cmpHolds (w cond a b : Nat) : Bool :=
  match cond with
  | 0 => a = b
  | 1 => a ≠ b
  | 2 => sextOf a w < sextOf b w
  | 3 => sextOf a w ≤ sextOf b w
  | 4 => a < b
  | 5 => a ≤ b
  | 6 => sextOf a w > sextOf b w
  | _ => a > b

/-- VCMP (R339). -/
def execVcmp (f : VFields) (s : State) : Out :=
  vectorPure (.vcmp f) s fun s =>
    let w := (fmtOf f).width
    let va := s.v f.a
    s.eachM f w fun g e => (cmpHolds w f.rm (g.el va w e) (s.operandB g f w e), 0)

/-! ### Mask logic (R340-R342) -/

/-- The range of an instruction without elements: VL and VBL as they stand (R327). -/
def Hart.maskRange (x : Hart) : Range := ⟨x.vec.vl, x.vec.vbl⟩

/-- A write of mask mD over VL as it stands. -/
def State.eachMask (s : State) (f : VFields) (op : Nat → Bool) : State :=
  let g := s.cur.maskRange
  let r := eachBits s g f 1 (s.m f.d.toNat) fun e => ((op e).toNat, 0)
  s.writeM f.d.toNat g.top r.1

/-- Mask logic of two masks (R340). -/
def maskVec (i : Instr) (f : VFields) (op : Bool → Bool → Bool) (s : State) : Out :=
  vectorPure i s fun s => s.eachMask f fun e => op (s.mbit f.a.toNat e) (s.mbit f.b.toNat e)

/-- MAND (R340). -/
def execMand (f : VFields) (s : State) : Out := maskVec (.mand f) f (fun a b => a && b) s

/-- MOR (R340). -/
def execMor (f : VFields) (s : State) : Out := maskVec (.mor f) f (fun a b => a || b) s

/-- MXOR (R340). -/
def execMxor (f : VFields) (s : State) : Out := maskVec (.mxor f) f (fun a b => a != b) s

/-- MANDN (R340). -/
def execMandn (f : VFields) (s : State) : Out := maskVec (.mandn f) f (fun a b => a && !b) s

/-- The active elements whose bit of mA is 1 (R341). -/
def State.setBits (s : State) (f : VFields) : List Nat :=
  (List.range s.cur.vec.vl).filter fun e => s.act s.cur.maskRange f e && s.mbit f.a.toNat e

/-- MPOP (R341). -/
def execMpop (f : VFields) (s : State) : Out := vectorPure (.mpop f) s fun s => s.writeY f.qs (s.setBits f).length

/-- MFIRST (R341). -/
def execMfirst (f : VFields) (s : State) : Out :=
  vectorPure (.mfirst f) s fun s => s.writeY f.qs ((s.setBits f).head?.getD (2 ^ 64 - 1))

/-- MSBF (R341). -/
def execMsbf (f : VFields) (s : State) : Out :=
  vectorPure (.msbf f) s fun s =>
    let t := (s.setBits f).head?.getD s.cur.vec.vl
    s.eachMask f fun e => e < t

/-- Active elements equal to element `e` among those that satisfy `p` (R342). -/
def State.equals (s : State) (g : Range) (f : VFields) (w e : Nat) (p : Nat → Bool) : Nat :=
  let va := s.v f.a
  (List.range g.vl).countP fun j => p j && s.act g f j && g.el va w j = g.el va w e

/-- VCONF (R342). -/
def execVconf (f : VFields) (s : State) : Out :=
  vectorPure (.vconf f) s fun s =>
    let w := (fmtOf f).width
    match bitsOf f.fnN 1 0 with
    | 0 => s.eachM f w fun g e => (s.equals g f w e (· < e) = 0, 0)
    | 1 => s.eachM f w fun g e => (s.equals g f w e (e < ·) = 0, 0)
    | _ => s.eachV f (max w 32) 32 fun g e => (s.equals g f w e (· ≤ e), 0)

/-! ### Moves and permutes (R343-R348) -/

/-- VMOV (R343). -/
def execVmov (f : VFields) (s : State) : Out :=
  vectorPure (.vmov f) s fun s =>
    let w := (fmtOf f).width
    let va := s.v f.a
    s.eachV f w w fun g e => (g.el va w e, 0)

/-- Write every element below VL and the pad, whatever the mask (R343, R347). -/
def State.fillV (s : State) (f : VFields) (w : Nat) (op : Range → Nat → Nat) : State :=
  let g := s.cur.range w
  let r := (List.range g.top).foldl (init := s.v f.d) fun r e => setEl r w e (if e < g.vl then op g e else 0)
  s.writeV f.d w g.top r

/-- VMERGE (R343). -/
def execVmerge (f : VFields) (s : State) : Out :=
  vectorPure (.vmerge f) s fun s =>
    let w := (fmtOf f).width
    let va := s.v f.a
    s.fillV f w fun g e => if s.mbit f.msk.toNat e then g.el va w e else s.operandB g f w e

/-- VBCAST (R343). -/
def execVbcast (f : VFields) (s : State) : Out :=
  vectorPure (.vbcast f) s fun s =>
    let w := (fmtOf f).width
    s.eachV f w w fun g e => (s.operandB g f w e, 0)

/-- VIDX (R343). -/
def execVidx (f : VFields) (s : State) : Out :=
  vectorPure (.vidx f) s fun s =>
    let w := (fmtOf f).width
    s.eachV f w w fun _ e => (wrapTo (e + sextOf f.immN 16) w, 0)

/-- An index operand: g(B) or IMM16 unsigned (R343, R346, R348). -/
def State.indexB (s : State) (f : VFields) : Nat := if f.bk = 1 then (s.snap f.b).toNat else f.immN

/-- VINS (R343). -/
def execVins (f : VFields) (s : State) : Out :=
  vectorPure (.vins f) s fun s =>
    let w := (fmtOf f).width
    let g := s.cur.range w
    let i := s.indexB f
    if s.act g f i then s.writeV f.d w (i + 1) (setEl (s.v f.d) w i (s.snap f.a).toNat) else s

/-- VSWZ (R344). -/
def execVswz (f : VFields) (s : State) : Out :=
  vectorPure (.vswz f) s fun s =>
    let w := (fmtOf f).width
    let k := perGroup w
    let x := bitsOf f.immN 4 0
    let va := s.v f.a
    s.eachV f w w fun g e =>
      let i := k * (e / k) + (if bitsOf f.fnN 0 0 = 0 then (e % k) ^^^ x else x)
      (if i < g.vl then g.el va w i else 0, 0)

/-- VSHUF (R345). -/
def execVshuf (f : VFields) (s : State) : Out :=
  vectorPure (.vshuf f) s fun s =>
    let w := (fmtOf f).width
    let wi := match f.bk with | 0 => w | 1 => 16 | _ => 32
    let va := s.v f.a
    let vb := s.v f.b
    s.eachV f (max w wi) w fun g e =>
      let i := g.el vb wi e
      (if i < g.vl then g.el va w i else 0, 0)

/-- VSLIDEUP (R346). -/
def execVslideup (f : VFields) (s : State) : Out :=
  vectorPure (.vslideup f) s fun s =>
    let w := (fmtOf f).width
    let va := s.v f.a
    let n := s.indexB f
    s.eachV f w w fun g e => (if n ≤ e then g.el va w (e - n) else 0, 0)

/-- VSLIDEDN (R346). -/
def execVslidedn (f : VFields) (s : State) : Out :=
  vectorPure (.vslidedn f) s fun s =>
    let w := (fmtOf f).width
    let va := s.v f.a
    let n := s.indexB f
    s.eachV f w w fun g e => (if e + n < g.vl then g.el va w (e + n) else 0, 0)

/-- The elements below VL that m[MK] selects (R347). -/
def State.selected (s : State) (g : Range) (f : VFields) : List Nat :=
  (List.range g.vl).filter fun e => s.mbit f.msk.toNat e

/-- VCOMP (R347). -/
def execVcomp (f : VFields) (s : State) : Out :=
  vectorPure (.vcomp f) s fun s =>
    let w := (fmtOf f).width
    let va := s.v f.a
    let g := s.cur.range w
    let sel := s.selected g f
    let kept := (sel.zipIdx).foldl (init := s.v f.d) fun r e => setEl r w e.2 (g.el va w e.1)
    let r := (List.range (g.vbl - sel.length)).foldl (init := kept) fun r j => setEl r w (sel.length + j) 0
    let s := s.writeV f.d w g.top r
    if bitsOf f.fnN 0 0 = 1 then s.writeY f.qs sel.length else s

/-- VEXPD (R347). -/
def execVexpd (f : VFields) (s : State) : Out :=
  vectorPure (.vexpd f) s fun s =>
    let w := (fmtOf f).width
    let va := s.v f.a
    let g := s.cur.range w
    let r := (List.range g.top).foldl (init := (s.v f.d, 0)) fun acc e =>
      if g.vl ≤ e then (setEl acc.1 w e 0, acc.2)
      else if s.mbit f.msk.toNat e then (setEl acc.1 w e (g.el va w acc.2), acc.2 + 1)
      else (if f.zm then setEl acc.1 w e 0 else acc.1, acc.2)
    s.writeV f.d w g.top r.1

/-- VEXT (R348). -/
def execVext (f : VFields) (s : State) : Out :=
  vectorPure (.vext f) s fun s =>
    let w := (fmtOf f).width
    let g := s.cur.range w
    let i := s.indexB f
    let x := if i < g.vl then g.el (s.v f.a) w i else 0
    s.writeY f.qs (if bitsOf f.fnN 2 2 = 1 then wrapTo (sextOf x w) 64 else x)

/-! ### Integer reductions (R349) -/

/-- One combination of VRED on 64-bit values (R349). -/
def redOp (op : Nat) (a b : Nat) : Nat :=
  match op with
  | 0 => (a + b) % 2 ^ 64
  | 1 => a &&& b
  | 2 => a ||| b
  | 3 => a ^^^ b
  | 4 => if sextOf a 64 ≤ sextOf b 64 then a else b
  | 5 => if sextOf a 64 ≤ sextOf b 64 then b else a
  | 6 => min a b
  | _ => max a b

/-- The identity of a reduction (R349). -/
def redId (op : Nat) : Nat :=
  match op with
  | 1 | 6 => 2 ^ 64 - 1
  | 4 => 2 ^ 63 - 1
  | 5 => 2 ^ 63
  | _ => 0

/-- VRED (R349). -/
def execVred (f : VFields) (s : State) : Out :=
  vectorPure (.vred f) s fun s =>
    let w := (fmtOf f).width
    let g := s.cur.range w
    let op := f.rm
    let zext : Bool := bitsOf f.fnN 3 3 = 1 || op = 6 || op = 7
    let ext (x : Nat) : Nat := if zext then x else wrapTo (sextOf x w) 64
    let start := if bitsOf f.fnN 4 4 = 1 then redOp op (redId op) (s.snap f.b).toNat else redId op
    let va := s.v f.a
    s.writeY f.qs ((List.range g.vl).foldl (init := start) fun acc e =>
      if s.act g f e then redOp op acc (ext (g.el va w e)) else acc)

/-! ### Control words (R159, R162) -/

/-- VBAR (R162): the model runs convoys one after another, so every earlier one is complete. -/
def execVbar (f : VFields) (s : State) : Out := vectorPure (.vbar f) s fun s => s

/-- VNOP (R159). -/
def execVnop (f : VFields) (s : State) : Out := vectorPure (.vnop f) s fun s => s

/-- VSTOP (R159): the block has run to its end; BLOCK_FINISH takes it from the queue. -/
def execVstop (f : VFields) (s : State) : Out :=
  vectorPure (.vstop f) s fun s => s.onCur fun x => match x.vec.queue with
    | b :: bs => { x with vec := { x.vec with queue := { b with ended := true } :: bs } }
    | [] => x

end Sys2Proof.Machine
end

