-- ==== Sys2Proof/Machine/Dispatch.lean ====
section
/-! DEFINITION. Dispatch: one arm per constructor of `Instr`, each one call of its meaning. -/

namespace Sys2Proof.Machine

/-- What an instruction or event does to the package. -/
def exec (i : Instr) (s : State) : Host.Outcome State Fault Refusal :=
  match i with
  | .add x0 x1 x2 => Sys2Proof.Machine.execAdd x0 x1 x2 s
  | .sub x0 x1 x2 => Sys2Proof.Machine.execSub x0 x1 x2 s
  | .and x0 x1 x2 => Sys2Proof.Machine.execAnd x0 x1 x2 s
  | .or x0 x1 x2 => Sys2Proof.Machine.execOr x0 x1 x2 s
  | .xor x0 x1 x2 => Sys2Proof.Machine.execXor x0 x1 x2 s
  | .andn x0 x1 x2 => Sys2Proof.Machine.execAndn x0 x1 x2 s
  | .shl x0 x1 x2 => Sys2Proof.Machine.execShl x0 x1 x2 s
  | .shr x0 x1 x2 => Sys2Proof.Machine.execShr x0 x1 x2 s
  | .sar x0 x1 x2 => Sys2Proof.Machine.execSar x0 x1 x2 s
  | .slt x0 x1 x2 => Sys2Proof.Machine.execSlt x0 x1 x2 s
  | .sltu x0 x1 x2 => Sys2Proof.Machine.execSltu x0 x1 x2 s
  | .min x0 x1 x2 => Sys2Proof.Machine.execMin x0 x1 x2 s
  | .max x0 x1 x2 => Sys2Proof.Machine.execMax x0 x1 x2 s
  | .minu x0 x1 x2 => Sys2Proof.Machine.execMinu x0 x1 x2 s
  | .maxu x0 x1 x2 => Sys2Proof.Machine.execMaxu x0 x1 x2 s
  | .mul x0 x1 x2 => Sys2Proof.Machine.execMul x0 x1 x2 s
  | .mulh x0 x1 x2 => Sys2Proof.Machine.execMulh x0 x1 x2 s
  | .mulhu x0 x1 x2 => Sys2Proof.Machine.execMulhu x0 x1 x2 s
  | .div x0 x1 x2 => Sys2Proof.Machine.execDiv x0 x1 x2 s
  | .divu x0 x1 x2 => Sys2Proof.Machine.execDivu x0 x1 x2 s
  | .rem x0 x1 x2 => Sys2Proof.Machine.execRem x0 x1 x2 s
  | .remu x0 x1 x2 => Sys2Proof.Machine.execRemu x0 x1 x2 s
  | .clz x0 x1 => Sys2Proof.Machine.execClz x0 x1 s
  | .ctz x0 x1 => Sys2Proof.Machine.execCtz x0 x1 s
  | .popc x0 x1 => Sys2Proof.Machine.execPopc x0 x1 s
  | .sext x0 x1 x2 => Sys2Proof.Machine.execSext x0 x1 x2 s
  | .zext x0 x1 x2 => Sys2Proof.Machine.execZext x0 x1 x2 s
  | .addi x0 x1 x2 => Sys2Proof.Machine.execAddi x0 x1 x2 s
  | .andi x0 x1 x2 => Sys2Proof.Machine.execAndi x0 x1 x2 s
  | .ori x0 x1 x2 => Sys2Proof.Machine.execOri x0 x1 x2 s
  | .xori x0 x1 x2 => Sys2Proof.Machine.execXori x0 x1 x2 s
  | .shli x0 x1 x2 => Sys2Proof.Machine.execShli x0 x1 x2 s
  | .shri x0 x1 x2 => Sys2Proof.Machine.execShri x0 x1 x2 s
  | .sari x0 x1 x2 => Sys2Proof.Machine.execSari x0 x1 x2 s
  | .slti x0 x1 x2 => Sys2Proof.Machine.execSlti x0 x1 x2 s
  | .sltui x0 x1 x2 => Sys2Proof.Machine.execSltui x0 x1 x2 s
  | .ldi x0 x1 x2 => Sys2Proof.Machine.execLdi x0 x1 x2 s
  | .ldiK x0 x1 x2 => Sys2Proof.Machine.execLdiK x0 x1 x2 s
  | .addpc x0 x1 => Sys2Proof.Machine.execAddpc x0 x1 s
  | .beq x0 x1 x2 => Sys2Proof.Machine.execBeq x0 x1 x2 s
  | .bne x0 x1 x2 => Sys2Proof.Machine.execBne x0 x1 x2 s
  | .blt x0 x1 x2 => Sys2Proof.Machine.execBlt x0 x1 x2 s
  | .bge x0 x1 x2 => Sys2Proof.Machine.execBge x0 x1 x2 s
  | .bltu x0 x1 x2 => Sys2Proof.Machine.execBltu x0 x1 x2 s
  | .bgeu x0 x1 x2 => Sys2Proof.Machine.execBgeu x0 x1 x2 s
  | .j x0 x1 => Sys2Proof.Machine.execJ x0 x1 s
  | .jr x0 x1 x2 => Sys2Proof.Machine.execJr x0 x1 x2 s
  | .ld x0 x1 x2 x3 x4 x5 => Sys2Proof.Machine.execLd x0 x1 x2 x3 x4 x5 s
  | .ldu x0 x1 x2 x3 x4 x5 => Sys2Proof.Machine.execLdu x0 x1 x2 x3 x4 x5 s
  | .st x0 x1 x2 x3 x4 x5 => Sys2Proof.Machine.execSt x0 x1 x2 x3 x4 x5 s
  | .amo x0 x1 x2 x3 x4 x5 x6 => Sys2Proof.Machine.execAmo x0 x1 x2 x3 x4 x5 x6 s
  | .cas x0 x1 x2 x3 x4 x5 => Sys2Proof.Machine.execCas x0 x1 x2 x3 x4 x5 s
  | .fadd x0 x1 x2 x3 x4 => Sys2Proof.Machine.execFadd x0 x1 x2 x3 x4 s
  | .fsub x0 x1 x2 x3 x4 => Sys2Proof.Machine.execFsub x0 x1 x2 x3 x4 s
  | .fmul x0 x1 x2 x3 x4 => Sys2Proof.Machine.execFmul x0 x1 x2 x3 x4 s
  | .fdiv x0 x1 x2 x3 x4 => Sys2Proof.Machine.execFdiv x0 x1 x2 x3 x4 s
  | .fsqrt x0 x1 x2 x3 => Sys2Proof.Machine.execFsqrt x0 x1 x2 x3 s
  | .fmin x0 x1 x2 x3 => Sys2Proof.Machine.execFmin x0 x1 x2 x3 s
  | .fmax x0 x1 x2 x3 => Sys2Proof.Machine.execFmax x0 x1 x2 x3 s
  | .fcmp x0 x1 x2 x3 x4 => Sys2Proof.Machine.execFcmp x0 x1 x2 x3 x4 s
  | .fclass x0 x1 x2 => Sys2Proof.Machine.execFclass x0 x1 x2 s
  | .fma x0 x1 x2 x3 x4 x5 => Sys2Proof.Machine.execFma x0 x1 x2 x3 x4 x5 s
  | .fcvt x0 x1 x2 x3 x4 x5 => Sys2Proof.Machine.execFcvt x0 x1 x2 x3 x4 x5 s
  | .fence x0 x1 => Sys2Proof.Machine.execFence x0 x1 s
  | .wait x0 x1 => Sys2Proof.Machine.execWait x0 x1 s
  | .barj x0 x1 => Sys2Proof.Machine.execBarj x0 x1 s
  | .bara x0 x1 => Sys2Proof.Machine.execBara x0 x1 s
  | .barw x0 x1 => Sys2Proof.Machine.execBarw x0 x1 s
  | .barl x0 => Sys2Proof.Machine.execBarl x0 s
  | .msg x0 x1 x2 x3 => Sys2Proof.Machine.execMsg x0 x1 x2 x3 s
  | .mret x0 => Sys2Proof.Machine.execMret x0 s
  | .token x0 x1 => Sys2Proof.Machine.execToken x0 x1 s
  | .texit => Sys2Proof.Machine.execTexit s
  | .tfail x0 => Sys2Proof.Machine.execTfail x0 s
  | .trap x0 => Sys2Proof.Machine.execTrap x0 s
  | .tret => Sys2Proof.Machine.execTret s
  | .brk => Sys2Proof.Machine.execBrk s
  | .cflush x0 x1 => Sys2Proof.Machine.execCflush x0 x1 s
  | .tlbi x0 x1 x2 => Sys2Proof.Machine.execTlbi x0 x1 x2 s
  | .srd x0 x1 => Sys2Proof.Machine.execSrd x0 x1 s
  | .swr x0 x1 => Sys2Proof.Machine.execSwr x0 x1 s
  | .srs x0 x1 x2 => Sys2Proof.Machine.execSrs x0 x1 x2 s
  | .src x0 x1 x2 => Sys2Proof.Machine.execSrc x0 x1 x2 s
  | .vlease x0 x1 => Sys2Proof.Machine.execVlease x0 x1 s
  | .vsetl x0 x1 x2 x3 x4 => Sys2Proof.Machine.execVsetl x0 x1 x2 x3 x4 s
  | .vfetch x0 => Sys2Proof.Machine.execVfetch x0 s
  | .vsync x0 => Sys2Proof.Machine.execVsync x0 s
  | .vcommit => Sys2Proof.Machine.execVcommit s
  | .vrel => Sys2Proof.Machine.execVrel s
  | .mbegin x0 => Sys2Proof.Machine.execMbegin x0 s
  | .mend => Sys2Proof.Machine.execMend s
  | .qset x0 x1 => Sys2Proof.Machine.execQset x0 x1 s
  | .qsetOff x0 => Sys2Proof.Machine.execQsetOff x0 s
  | .qpos x0 x1 x2 => Sys2Proof.Machine.execQpos x0 x1 x2 s
  | .qposRd x0 x1 => Sys2Proof.Machine.execQposRd x0 x1 s
  | .qcopy x0 x1 x2 x3 x4 => Sys2Proof.Machine.execQcopy x0 x1 x2 x3 x4 s
  | .qput x0 x1 x2 x3 x4 => Sys2Proof.Machine.execQput x0 x1 x2 x3 x4 s
  | .qfence x0 x1 x2 x3 => Sys2Proof.Machine.execQfence x0 x1 x2 x3 s
  | .swarm x0 x1 x2 => Sys2Proof.Machine.execSwarm x0 x1 x2 s
  | .swwait x0 x1 x2 => Sys2Proof.Machine.execSwwait x0 x1 x2 s
  | .xput x0 x1 x2 => Sys2Proof.Machine.execXput x0 x1 x2 s
  | .xget x0 x1 x2 => Sys2Proof.Machine.execXget x0 x1 x2 s
  | .xsig x0 x1 => Sys2Proof.Machine.execXsig x0 x1 s
  | .vadd x0 => Sys2Proof.Machine.execVadd x0 s
  | .vsub x0 => Sys2Proof.Machine.execVsub x0 s
  | .vmul x0 => Sys2Proof.Machine.execVmul x0 s
  | .vmulh x0 => Sys2Proof.Machine.execVmulh x0 s
  | .vmulhu x0 => Sys2Proof.Machine.execVmulhu x0 s
  | .vmad x0 => Sys2Proof.Machine.execVmad x0 s
  | .vmin x0 => Sys2Proof.Machine.execVmin x0 s
  | .vmax x0 => Sys2Proof.Machine.execVmax x0 s
  | .vminu x0 => Sys2Proof.Machine.execVminu x0 s
  | .vmaxu x0 => Sys2Proof.Machine.execVmaxu x0 s
  | .vand x0 => Sys2Proof.Machine.execVand x0 s
  | .vor x0 => Sys2Proof.Machine.execVor x0 s
  | .vxor x0 => Sys2Proof.Machine.execVxor x0 s
  | .vandn x0 => Sys2Proof.Machine.execVandn x0 s
  | .vshl x0 => Sys2Proof.Machine.execVshl x0 s
  | .vshr x0 => Sys2Proof.Machine.execVshr x0 s
  | .vsar x0 => Sys2Proof.Machine.execVsar x0 s
  | .vadds x0 => Sys2Proof.Machine.execVadds x0 s
  | .vsubs x0 => Sys2Proof.Machine.execVsubs x0 s
  | .vaddsu x0 => Sys2Proof.Machine.execVaddsu x0 s
  | .vsubsu x0 => Sys2Proof.Machine.execVsubsu x0 s
  | .vabs x0 => Sys2Proof.Machine.execVabs x0 s
  | .vfadd x0 => Sys2Proof.Machine.execVfadd x0 s
  | .vfsub x0 => Sys2Proof.Machine.execVfsub x0 s
  | .vfmul x0 => Sys2Proof.Machine.execVfmul x0 s
  | .vfdiv x0 => Sys2Proof.Machine.execVfdiv x0 s
  | .vfsqrt x0 => Sys2Proof.Machine.execVfsqrt x0 s
  | .vfma x0 => Sys2Proof.Machine.execVfma x0 s
  | .vfmin x0 => Sys2Proof.Machine.execVfmin x0 s
  | .vfmax x0 => Sys2Proof.Machine.execVfmax x0 s
  | .vfsgn x0 => Sys2Proof.Machine.execVfsgn x0 s
  | .vfrcp x0 => Sys2Proof.Machine.execVfrcp x0 s
  | .vfrsq x0 => Sys2Proof.Machine.execVfrsq x0 s
  | .vfexp2f x0 => Sys2Proof.Machine.execVfexp2f x0 s
  | .vfrint x0 => Sys2Proof.Machine.execVfrint x0 s
  | .vfscale x0 => Sys2Proof.Machine.execVfscale x0 s
  | .vfgetx x0 => Sys2Proof.Machine.execVfgetx x0 s
  | .vfclass x0 => Sys2Proof.Machine.execVfclass x0 s
  | .vfcmp x0 => Sys2Proof.Machine.execVfcmp x0 s
  | .vcvt x0 => Sys2Proof.Machine.execVcvt x0 s
  | .vqmx x0 => Sys2Proof.Machine.execVqmx x0 s
  | .vcmp x0 => Sys2Proof.Machine.execVcmp x0 s
  | .mand x0 => Sys2Proof.Machine.execMand x0 s
  | .mor x0 => Sys2Proof.Machine.execMor x0 s
  | .mxor x0 => Sys2Proof.Machine.execMxor x0 s
  | .mandn x0 => Sys2Proof.Machine.execMandn x0 s
  | .mpop x0 => Sys2Proof.Machine.execMpop x0 s
  | .mfirst x0 => Sys2Proof.Machine.execMfirst x0 s
  | .msbf x0 => Sys2Proof.Machine.execMsbf x0 s
  | .vconf x0 => Sys2Proof.Machine.execVconf x0 s
  | .vmov x0 => Sys2Proof.Machine.execVmov x0 s
  | .vmerge x0 => Sys2Proof.Machine.execVmerge x0 s
  | .vshuf x0 => Sys2Proof.Machine.execVshuf x0 s
  | .vswz x0 => Sys2Proof.Machine.execVswz x0 s
  | .vslideup x0 => Sys2Proof.Machine.execVslideup x0 s
  | .vslidedn x0 => Sys2Proof.Machine.execVslidedn x0 s
  | .vbcast x0 => Sys2Proof.Machine.execVbcast x0 s
  | .vcomp x0 => Sys2Proof.Machine.execVcomp x0 s
  | .vexpd x0 => Sys2Proof.Machine.execVexpd x0 s
  | .vidx x0 => Sys2Proof.Machine.execVidx x0 s
  | .vext x0 => Sys2Proof.Machine.execVext x0 s
  | .vins x0 => Sys2Proof.Machine.execVins x0 s
  | .vred x0 => Sys2Proof.Machine.execVred x0 s
  | .vfred x0 => Sys2Proof.Machine.execVfred x0 s
  | .vfredo x0 => Sys2Proof.Machine.execVfredo x0 s
  | .vld x0 => Sys2Proof.Machine.execVld x0 s
  | .vst x0 => Sys2Proof.Machine.execVst x0 s
  | .vgath x0 => Sys2Proof.Machine.execVgath x0 s
  | .vscat x0 => Sys2Proof.Machine.execVscat x0 s
  | .vglnk x0 => Sys2Proof.Machine.execVglnk x0 s
  | .vscnd x0 => Sys2Proof.Machine.execVscnd x0 s
  | .vamo x0 => Sys2Proof.Machine.execVamo x0 s
  | .vwaitv x0 => Sys2Proof.Machine.execVwaitv x0 s
  | .vpref x0 => Sys2Proof.Machine.execVpref x0 s
  | .mzero x0 => Sys2Proof.Machine.execMzero x0 s
  | .mopa x0 => Sys2Proof.Machine.execMopa x0 s
  | .mopai x0 => Sys2Proof.Machine.execMopai x0 s
  | .mopax x0 => Sys2Proof.Machine.execMopax x0 s
  | .mdrain x0 => Sys2Proof.Machine.execMdrain x0 s
  | .mfill x0 => Sys2Proof.Machine.execMfill x0 s
  | .vbar x0 => Sys2Proof.Machine.execVbar x0 s
  | .vnop x0 => Sys2Proof.Machine.execVnop x0 s
  | .vstop x0 => Sys2Proof.Machine.execVstop x0 s
  | .blockFinish x0 => Sys2Proof.Machine.execBlockFinish x0 s
  | .vectorTrapTake x0 => Sys2Proof.Machine.execVectorTrapTake x0 s
  | .asyncEventTake x0 => Sys2Proof.Machine.execAsyncEventTake x0 s
  | .breakpoint x0 => Sys2Proof.Machine.execBreakpoint x0 s
  | .residueMismatch x0 x1 => Sys2Proof.Machine.execResidueMismatch x0 x1 s
  | .messageArrive x0 => Sys2Proof.Machine.execMessageArrive x0 s
  | .handlerStart x0 => Sys2Proof.Machine.execHandlerStart x0 s
  | .handlerOverrun x0 => Sys2Proof.Machine.execHandlerOverrun x0 s
  | .replyArrive x0 => Sys2Proof.Machine.execReplyArrive x0 s
  | .ping x0 => Sys2Proof.Machine.execPing x0 s
  | .rd x0 => Sys2Proof.Machine.execRd x0 s
  | .wr x0 => Sys2Proof.Machine.execWr x0 s
  | .aadd x0 => Sys2Proof.Machine.execAadd x0 s
  | .swap x0 => Sys2Proof.Machine.execSwap x0 s
  | .casBuiltin x0 => Sys2Proof.Machine.execCasBuiltin x0 s
  | .copy x0 => Sys2Proof.Machine.execCopy x0 s
  | .swbump x0 => Sys2Proof.Machine.execSwbump x0 s
  | .evset x0 => Sys2Proof.Machine.execEvset x0 s
  | .copyEntry x0 x1 => Sys2Proof.Machine.execCopyEntry x0 x1 s
  | .fabricEntry x0 x1 => Sys2Proof.Machine.execFabricEntry x0 x1 s
  | .lockGrant => Sys2Proof.Machine.execLockGrant s
  | .lockTimeout => Sys2Proof.Machine.execLockTimeout s
  | .vwaitvWake x0 => Sys2Proof.Machine.execVwaitvWake x0 s
  | .vwaitvTimeout x0 => Sys2Proof.Machine.execVwaitvTimeout x0 s
  | .stewardServiceDone x0 => Sys2Proof.Machine.execStewardServiceDone x0 s
  | .stewardRetry x0 => Sys2Proof.Machine.execStewardRetry x0 s
  | .arbiterRound x0 x1 => Sys2Proof.Machine.execArbiterRound x0 x1 s
  | .revocationDeadline x0 x1 => Sys2Proof.Machine.execRevocationDeadline x0 x1 s
  | .drainTimeout x0 => Sys2Proof.Machine.execDrainTimeout x0 s
  | .spillDone x0 => Sys2Proof.Machine.execSpillDone x0 s
  | .cancelLand x0 => Sys2Proof.Machine.execCancelLand x0 s
  | .cancelTimeout x0 => Sys2Proof.Machine.execCancelTimeout x0 s
  | .hartRetire x0 => Sys2Proof.Machine.execHartRetire x0 s
  | .preempt x0 x1 => Sys2Proof.Machine.execPreempt x0 x1 s
  | .preemptComplete x0 => Sys2Proof.Machine.execPreemptComplete x0 s
  | .preemptRestart x0 => Sys2Proof.Machine.execPreemptRestart x0 s
  | .hartMove x0 x1 => Sys2Proof.Machine.execHartMove x0 x1 s
  | .moveTimeout x0 => Sys2Proof.Machine.execMoveTimeout x0 s
  | .gattach x0 => Sys2Proof.Machine.execGattach x0 s
  | .gdetach x0 => Sys2Proof.Machine.execGdetach x0 s
  | .tokenStep x0 => Sys2Proof.Machine.execTokenStep x0 s
  | .nodeDispatch x0 => Sys2Proof.Machine.execNodeDispatch x0 s
  | .reservation x0 => Sys2Proof.Machine.execReservation x0 s
  | .foldedHartStart x0 => Sys2Proof.Machine.execFoldedHartStart x0 s
  | .prepare x0 x1 => Sys2Proof.Machine.execPrepare x0 x1 s
  | .ack x0 x1 => Sys2Proof.Machine.execAck x0 x1 s
  | .nack x0 x1 => Sys2Proof.Machine.execNack x0 x1 s
  | .commit x0 x1 => Sys2Proof.Machine.execCommit x0 x1 s
  | .abort x0 x1 => Sys2Proof.Machine.execAbort x0 x1 s
  | .launchTimeout x0 => Sys2Proof.Machine.execLaunchTimeout x0 s
  | .walkVisit x0 => Sys2Proof.Machine.execWalkVisit x0 s
  | .traceStart x0 x1 => Sys2Proof.Machine.execTraceStart x0 x1 s
  | .traceBatchWrite x0 x1 => Sys2Proof.Machine.execTraceBatchWrite x0 x1 s
  | .stwtailWrite x0 x1 => Sys2Proof.Machine.execStwtailWrite x0 x1 s
  | .stwringWrite x0 x1 => Sys2Proof.Machine.execStwringWrite x0 x1 s
  | .podretire x0 x1 => Sys2Proof.Machine.execPodretire x0 x1 s
  | .eolWrite x0 x1 x2 => Sys2Proof.Machine.execEolWrite x0 x1 x2 s
  | .hmarginWrite x0 x1 => Sys2Proof.Machine.execHmarginWrite x0 x1 s
  | .thermalSample x0 x1 => Sys2Proof.Machine.execThermalSample x0 x1 s
  | .clamp x0 x1 => Sys2Proof.Machine.execClamp x0 x1 s
  | .powerMeasure x0 x1 => Sys2Proof.Machine.execPowerMeasure x0 x1 s
  | .flitReceive x0 x1 x2 => Sys2Proof.Machine.execFlitReceive x0 x1 x2 s
  | .retrain x0 => Sys2Proof.Machine.execRetrain x0 s
  | .retrainDone x0 x1 => Sys2Proof.Machine.execRetrainDone x0 x1 s
  | .switchoverEnd x0 => Sys2Proof.Machine.execSwitchoverEnd x0 s
  | .packageUnreachable x0 => Sys2Proof.Machine.execPackageUnreachable x0 s
  | .hostFetchadd x0 x1 => Sys2Proof.Machine.execHostFetchadd x0 x1 s
  | .hostMemoryRead x0 x1 => Sys2Proof.Machine.execHostMemoryRead x0 x1 s
  | .hostMemoryWrite x0 x1 => Sys2Proof.Machine.execHostMemoryWrite x0 x1 s
  | .hostConfigWrite x0 x1 x2 => Sys2Proof.Machine.execHostConfigWrite x0 x1 x2 s
  | .hostRefusedRequest x0 => Sys2Proof.Machine.execHostRefusedRequest x0 s
  | .rstreqWarm => Sys2Proof.Machine.execRstreqWarm s
  | .rstreqCold => Sys2Proof.Machine.execRstreqCold s
  | .coldStart => Sys2Proof.Machine.execColdStart s
  | .startupStep x0 => Sys2Proof.Machine.execStartupStep x0 s
  | .hostCompletion x0 => Sys2Proof.Machine.execHostCompletion x0 s
  | .hostRequestTimeout => Sys2Proof.Machine.execHostRequestTimeout s
  | .keyload => Sys2Proof.Machine.execKeyload s
  | .release => Sys2Proof.Machine.execRelease s
  | .audset => Sys2Proof.Machine.execAudset s
  | .audlog => Sys2Proof.Machine.execAudlog s
  | .checkpt => Sys2Proof.Machine.execCheckpt s
  | .attest => Sys2Proof.Machine.execAttest s
  | .ident => Sys2Proof.Machine.execIdent s
  | .mailboxDone => Sys2Proof.Machine.execMailboxDone s
  | .auditInterval x0 => Sys2Proof.Machine.execAuditInterval x0 s
  | .auditPendingWrite x0 => Sys2Proof.Machine.execAuditPendingWrite x0 s
  | .msixUnmask x0 => Sys2Proof.Machine.execMsixUnmask x0 s
  | .badcmd => Sys2Proof.Machine.execBadcmd s
  | .hotReset => Sys2Proof.Machine.execHotReset s

end Sys2Proof.Machine
end

