-- ==== Sys2Proof/Machine/Issue.lean ====
section
/-! DEFINITION. How a slot issues (R145, R226, R268, R290) and a core chooses a slot (R12, R146, R147). -/

namespace Sys2Proof.Machine

/-- The built-in handlers (R154). -/
def builtin (k : CoreId) (hnd : Nat) : Option Instr :=
  match hnd with
  | 0 => some (.ping k) | 1 => some (.rd k) | 2 => some (.wr k) | 3 => some (.aadd k) | 4 => some (.swap k)
  | 5 => some (.casBuiltin k) | 6 => some (.copy k) | 7 => some (.swbump k) | 8 => some (.evset k) | _ => none

/-- Count an instruction of a handler (R153). -/
def Hart.countIssued (x : Hart) : Hart :=
  if x.wait.stall.isSome then x
  else { x with handler := x.handler.map fun h => { h with issued := h.issued + 1 } }

/-- The instruction at the PC: fetched, decoded, executed (R290). -/
def runAtPc (s : State) : Out :=
  match s.fetch with
  | .trap c t s => .next (s.scalarTrap c t)
  | .stall w s => .next (s.stalled w)
  | .ok w s => match decodeScalar w with
    | .ok i => exec i s
    | .error .extension => .next (s.scalarTrap 0x02 (BitVec.ofNat 64 w))
    | .error _ => .next (s.scalarTrap 0x01 (BitVec.ofNat 64 w))

/-- The next instruction of a slot: of its handler (R152-R154), or of its program, before which a breakpoint may match (R268). -/
def issueNext (s : State) : Out :=
  let x := s.cur
  match x.handler with
  | some h =>
    if h.msg.hnd.toNat < 16 then
      (match builtin x.id.coreId h.msg.hnd.toNat with | some i => exec i s | none => .next (s.handlerFails 0x01))
    else if h.issued = 256 then exec (.handlerOverrun x.id.coreId) s
    else match runAtPc s with
      | .next s => .next (s.onCur Hart.countIssued)
      | r => r
  | none =>
    if !x.trap.afterTret && (x.breakpoint false x.base.pc).isSome then exec (.breakpoint x.id) s
    else runAtPc s

/-- What a running slot does at an instruction boundary, in the order of R226, and else its next instruction. A store or an atomic that has
issued performs first (R319), and an attach is not cut off (R85). -/
def issueHere (s : State) : Out :=
  let x := s.cur
  if x.occ ≠ .running || s.roundHolds x then .next s
  else if x.issuedWrite then issueNext s
  else if x.cancelReady s.cycle then exec (.cancelLand x.id) s
  else if x.wait.preempt ∧ x.lease.state ≠ .held then
    .next (s.abandonAccess.onCur fun x => { x with occ := .preempted, wait := { x.wait with stall := none }, allFail := 0 })
  else if x.stopped then .next (s.stalled .lease)
  else if x.trap.vtrap.isSome ∧ x.trap.depth = 0 then exec (.vectorTrapTake x.id) s
  else if x.trap.held ≠ [] ∧ x.trap.depth = 0 then exec (.asyncEventTake x.id) s
  else issueNext s

/-- A slot issues. -/
def issue (s : State) (h : HartId) : Out := issueHere (s.focus h)

/-- Did a slot that tried issue nothing: it waits, or has been stopped by a request (R145, R108, R238)? -/
def State.passedOver (s : State) (h : HartId) : Bool :=
  let x := s.hart h
  match x.occ with
  | .running => x.wait.stall.isSome
  | .cancelled | .preempted => true
  | _ => false

/-- The core has chosen program slot `n` in this cycle (R146). -/
def State.noteIssue (s : State) (k : CoreId) (n : Nat) : State :=
  s.onCore k fun c => { c with last := n, owed := c.owed.filter (· ≠ n), chose := some (s.cycle, n) }

/-- The core has issued slot 7, or started a handler (8), in this cycle (R146). -/
def State.noteHandler (s : State) (k : CoreId) (n : Nat) : State := s.onCore k fun c => { c with chose := some (s.cycle, n) }

/-- Does the core make no choice now: its cluster's throttle does not allow the cycle (R12), or it has chosen in it (R146)? -/
def State.coreHeld (s : State) (k : CoreId) : Bool :=
  (k.clu ≠ Config.mgmtCluster && !throttleAllows (s.cluster k.die k.clu).effective s.cycle)
    || (s.core k).chose.any fun c => c.1 = s.cycle

/-- The first of some program slots that is ready issues and becomes `last` (R146). -/
def issueFirst (s : State) (k : CoreId) : List Nat → Out
  | [] => .next s
  | n :: ns =>
    let h : HartId := ⟨k.die, k.clu, k.core, n⟩
    if (s.hart h).occ ≠ .running then issueFirst s k ns
    else match issue s h with
      | .next s =>
        if s.passedOver h then issueFirst s k ns
        else .next (s.noteIssue k n)
      | r => r

/-- The program slots in the order of R146. -/
def slotOrder (last : Nat) : List Nat := (List.range 7).map fun i => (last + 1 + i) % 7

/-- Is a program slot ready in this cycle (R145): would it issue? -/
def State.slotReady (s : State) (k : CoreId) (n : Nat) : Bool :=
  let h : HartId := ⟨k.die, k.clu, k.core, n⟩
  (s.hart h).occ = .running && (match issue s h with | .next t => !t.passedOver h | _ => false)

/-- The handler in slot 7 has ended: the program slots that are ready now issue before the next one starts (R146). So do they after one that
failed, or R147 would not hold (DEDUCED, log 32). -/
def State.owe (s : State) (k : CoreId) : State :=
  if (s.hart k.messageSlot).handler.isSome then s else s.onCore k fun c => { c with owed := (List.range 7).filter (s.slotReady k) }

/-- Program slots that have ceased to be ready hold no handler back (R146). -/
def State.prune (s : State) (k : CoreId) : State := s.onCore k fun c => { c with owed := c.owed.filter (s.slotReady k) }

/-- The handler in slot 7: it reads its entry, waits for its first cycle (R151), or issues; `rest` goes on where it issues nothing. -/
def chooseHandler (s : State) (k : CoreId) (h : Handler) (rest : State → Out) : Out :=
  if h.pending then rest ((s.readEntry k h.msg).owe k)
  else if s.cycle < h.ready then rest s
  else match issue s k.messageSlot with
    | .next t => if t.passedOver k.messageSlot then rest t else .next ((t.noteHandler k 7).owe k)
    | r => r

/-- May the core start the handler of the message at the head of its queue (R146)? -/
def State.startsHandler (s : State) (k : CoreId) : Bool :=
  (s.core k).queue ≠ [] && (s.hart k.messageSlot).occ = .empty && s.handlerAllowed k

/-- A core's choice (R146), once in a cycle that the throttle allows (R12). -/
def chooseSlot (s : State) (k : CoreId) : Out :=
  if s.coreHeld k then .next s
  else
    let rest (s : State) : Out :=
      if s.startsHandler k then exec (.handlerStart k) (s.noteHandler k 8) else issueFirst s k (slotOrder (s.core k).last)
    let s := s.prune k
    match (s.hart k.messageSlot).handler with
    | some h => chooseHandler s k h rest
    | none => rest s

/-- Slot 7 starts a handler, or the handler that `i` names goes on: where its core chooses it in this cycle (R12, R146). -/
def chooseEvent (s : State) (k : CoreId) (i : Instr) : Out :=
  if s.coreHeld k then .next s
  else
    let s := s.prune k
    match (s.hart k.messageSlot).handler with
    | some h => if builtin k h.msg.hnd.toNat = some i ∨ i = .handlerOverrun k then chooseHandler s k h .next else .next s
    | none => if i = .handlerStart k ∧ s.startsHandler k then exec i (s.noteHandler k 8) else .next s

/-- A slot issues, if it is the one that its core chooses now; what the core has tried before in vain stays (R145, R146). -/
def issueChosen (s : State) (h : HartId) : Out :=
  match chooseSlot s h.coreId with
  | .next t => if (t.core h.coreId).chose.any fun c => c.1 = s.cycle && c.2 ≠ h.slot then .next s else .next t
  | r => r

end Sys2Proof.Machine
end

