-- ==== Sys2Proof/Machine/Convoy.lean ====
section
/-! DEFINITION. The convoy sequencer (R158-R161, R268, R291): a convoy is fetched, decided and checked at its head, then
its words run one after another. -/

namespace Sys2Proof.Machine

/-! ### What a word writes, and its class (R159) -/

/-- The classes of R159. -/
inductive VClass where
  | arithmetic | memory | crossLane | control
  deriving DecidableEq, Repr

/-- The class of a major opcode (R159, R289). -/
def vclass (vop : Nat) : VClass :=
  if 0x7C ≤ vop then .control
  else if 0x68 ≤ vop then .crossLane
  else if 0x58 ≤ vop then .memory
  else if [0x32, 0x3D, 0x3E, 0x3F, 0x40, 0x46, 0x48, 0x49, 0x4B, 0x4C, 0x4E, 0x50, 0x51, 0x52].contains vop then .crossLane
  else .arithmetic

/-- The registers that a word writes: (0, n) vector, (1, n) mask, (2, n) tile, (3, n) result slot. -/
def vwrites (vop : Nat) (f : VFields) : List (Nat × Nat) :=
  let d := f.d.toNat
  let q := f.qs.toNat
  if vop = 0x2F ∨ vop = 0x30 ∨ (0x38 ≤ vop ∧ vop ≤ 0x3C) ∨ vop = 0x3F ∨ vop = 0x5D ∨ vop = 0x5F then [(1, d)]
  else if vop = 0x40 then [(if bitsOf f.fnN 1 0 = 2 then 0 else 1, d)]
  else if vop = 0x32 then [(0, d), (0, f.e.toNat)]
  else if [0x3D, 0x3E, 0x4E, 0x50, 0x51, 0x52].contains vop then [(3, q)]
  else if vop = 0x4B then (0, d) :: (if f.fnN % 2 = 1 then [(3, q)] else [])
  else if [0x59, 0x5B, 0x60, 0x7C, 0x7D, 0x7E].contains vop then []
  else if vop = 0x5E then (if bitsOf f.fnN 7 7 = 1 then [(0, d)] else [])
  else if [0x68, 0x69, 0x6A, 0x6B, 0x6D].contains vop then [(2, d)]
  else [(0, d)]

/-- The rules of R159 that look at a whole convoy. -/
def convoyLegal (is : List Instr) : Bool :=
  let ops := is.filterMap vectorOp
  let count (c : VClass) : Nat := (ops.filter fun o => vclass o.1 = c).length
  let writes := ops.flatMap fun o => vwrites o.1 o.2
  is.length ≤ 4 && count .arithmetic ≤ 2 && count .memory ≤ 1 && count .crossLane ≤ 1
    && writes.eraseDups.length = writes.length
    && (is.length = 1 || ops.all fun o => o.1 ≠ 0x7C && o.1 ≠ 0x7E)

/-! ### The head of a convoy -/

/-- The check of a memory word against its stream at the issue of its convoy (R353). -/
def State.streamOk (s : State) (i : Instr) : Bool :=
  match i with
  | .vld f | .vst f | .vpref f => (s.vmem f false false).streamOk
  | .vgath f | .vscat f => (s.vmem f true false).streamOk
  | .vglnk f | .vscnd f | .vamo f => (s.vmem f true true).streamOk
  | .vwaitv f => (s.vmem f (bitsOf f.fnN 2 2 = 1) true).streamOk
  | _ => true

/-- The trap of a word at its place in the convoy, if it fails (R291, R353, R374). -/
def State.wordFails (s : State) (alone : Bool) (w : Nat) : Option (Nat × Word) :=
  let tval : Word := BitVec.ofNat 64 w
  match decodeVector w with
  | .error .extension => some (if alone then 0x02 else 0x01, tval)
  | .error _ => some (0x01, tval)
  | .ok i => if i.legal && s.cur.hasFeatures i && s.streamOk i && s.cur.matrixOk i then none else some (0x01, tval)

/-- The words from an address on until one with C, each decided at its place (R291); `first` says that none has been read yet. A word
rewritten since the VFETCH is the old one or the new one (R161). -/
def fetchConvoy (s : State) (cx : Ctx) (since : Nat) (first : Bool) (va : Word) : Nat → Res (List Nat)
  | 0 => .ok [] s
  | k + 1 =>
    (resolve s cx .fetch va).bind fun p s =>
      (readSpot s cx va p 8 .plain).bind fun w s =>
        let (w, s) := s.pickWord w (s.oldWords p 8 fun e => since ≤ e.serial)
        match s.wordFails (first && w.testBit 63) w with
        | some t => .trap t.1 t.2 s
        | none =>
          if w.testBit 63 then .ok [w] s
          else (fetchConvoy s cx since false (va + 8) k).bind fun ws s => .ok (w :: ws) s

/-- The words that the address space has: no convoy is longer. -/
def convoyFuel : Nat := 2 ^ 61

/-- The trap of a convoy whose words all pass: the rules of R159. -/
def convoyFails (head : Nat) (ws : List Nat) : Option (Nat × Word) :=
  let is := ws.filterMap fun w => (decodeVector w).toOption
  if head < 1024 && convoyLegal is then none else some (0x01, BitVec.ofNat 64 (ws.headD 0))

/-- The next member runs. -/
def runMember (s : State) : Out :=
  match s.cur.vec.queue with
  | b :: _ => (match b.nextInstr with | some i => exec i s | none => .next s)
  | [] => .next s

/-- The convoy is read: its words stand in the block, with the result slots as they are. -/
def State.startConvoy (s : State) (ws : List Nat) : State :=
  s.onCur fun x => match x.vec.queue with
    | b :: bs => { x with vec := { x.vec with queue := { b with words := ws, next := 0, y := x.vec.yBlock } :: bs } }
    | [] => x

/-- A convoy at its head: a breakpoint (R268), the fetch, the checks, then its first word. -/
def convoyHead (s : State) (b : Block) : Out :=
  let va := s.cur.cvp
  match (if s.cur.trap.bpctl then none else s.cur.breakpoint true va) with
  | some k => breakConvoy s k
  | none =>
    let cx := s.cur.vectorCx
    match fetchConvoy s cx b.since true va convoyFuel with
    | .stall w s' => .next ((s.keepRequests s').vectorStalls w)
    | .trap c t s' => vectorTrap s s' c t
    | .ok ws s' =>
      let s' := (s'.clearAnswers cx.who).startConvoy ws
      match convoyFails b.head ws with
      | some t => vectorTrap s s' t.1 t.2
      | none => runMember s'

/-- May the sequencer of the hart in focus go on: a HELD lease that is not stopped, an open strip, a block that has not
ended; a VWAITV waits for a write or its deadline (R363). -/
def State.convoyReady (s : State) : Bool :=
  let x := s.cur
  s.vectorReady && x.lease.state = .held && !x.stopped && !s.roundHolds x && x.trap.vtrap.isNone
    && (match x.vec.queue with | b :: _ => !b.ended | [] => false)
    && (match x.wait.deadline with | some d => x.wait.woken || d ≤ s.cycle | none => true)

/-- Does the throttle of the lease's cluster let its sequencer issue a convoy now (R12)? -/
def State.convoyAllowed (s : State) : Bool :=
  throttleAllows (s.cluster s.cur.lease.die s.cur.lease.clu).effective s.cycle

/-- The sequencer of the hart in focus makes a move: a convoy issues, or one that has issued goes on. -/
def convoyHere (s : State) : Out :=
  if !s.convoyReady then .next s
  else match s.cur.vec.queue with
    | b :: _ => if b.words = [] then (if s.convoyAllowed then convoyHead s b else .next s) else runMember s
    | [] => .next s

/-- The sequencer of a hart's lease makes a move. -/
def convoy (s : State) (h : HartId) : Out := convoyHere (s.focus h)

end Sys2Proof.Machine
end

