-- ==== Sys2Proof/Machine/Agents.lean ====
section
/-! DEFINITION. The agenda and the turns (log 6), and the placing of one instruction (log 2). -/

namespace Sys2Proof.Machine

/-- The events that start a hart or a handler (R98, R151, R238), or in which one runs (R154, R158, R225, R226, R231, R268, R363). -/
def runsHart : Instr → Bool
  | .handlerStart .. | .nodeDispatch .. | .foldedHartStart .. | .prepare .. | .preemptRestart .. => true
  | .ping .. | .rd .. | .wr .. | .aadd .. | .swap .. | .casBuiltin .. | .copy .. | .swbump .. | .evset .. | .handlerOverrun .. => true
  | .blockFinish .. | .vectorTrapTake .. | .asyncEventTake .. | .breakpoint .. | .residueMismatch .. | .vwaitvWake .. | .vwaitvTimeout .. => true
  | _ => false

/-- The requests of the host, which are performed in the order of their arrival (R54). -/
def hostRequest : Instr → Option HostWait
  | .hostFetchadd off a => some (.fetchadd off a)
  | .hostMemoryRead off n => some (.read off n)
  | .hostMemoryWrite off bytes => some (.write off bytes)
  | .hostConfigWrite off n v => some (.config off n v)
  | .hostRefusedRequest r => some (.other r)
  | _ => none

/-- A request of the host that has waited is performed. -/
def execHostWait : HostWait → State → Out
  | .fetchadd off a => execHostFetchadd off a
  | .read off n => execHostMemoryRead off n
  | .write off bytes => execHostMemoryWrite off bytes
  | .config off n v => execHostConfigWrite off n v
  | .other r => execHostRefusedRequest r

/-- The core at whose slot 7 a move is made: the start of a handler, a built-in one, an overrun (R146, R151-R154). -/
def slotSeven : Instr → Option CoreId
  | .handlerStart k | .ping k | .rd k | .wr k | .aadd k | .swap k | .casBuiltin k | .copy k | .swbump k | .evset k | .handlerOverrun k => some k
  | _ => none

/-- An event: nothing runs a hart of a package that has halted (R29), slot 7 goes on only where its core chooses it (R12, R146), and a
request of the host comes after those that wait (R54). -/
def event (s : State) (i : Instr) : Out :=
  if s.halted && runsHart i then .next s
  else if let some k := slotSeven i then chooseEvent s k i
  else match (if s.port.held = [] then none else hostRequest i) with
    | some r => .next (s.holdHost r)
    | none => exec i s

/-- The first request of the host that waits is performed, once it can be (R54, R361). -/
def hostResumes (s : State) : Out :=
  match s.port.held with
  | [] => .next s
  | r :: rest => match execHostWait r (s.onPort fun q => { q with held := [] }) with
    | .next t => .next (if t.port.held = [] then t.onPort fun q => { q with held := rest } else s)
    | r => r

/-- One move of an agent; a package that has halted runs no hart (R29). -/
def act (s : State) : Act → Out
  | .issue h => if s.halted then .next s else issueChosen s h
  | .core k => if s.halted then .next s else chooseSlot s k
  | .convoy h => if s.halted then .next s else convoy s h
  | .event i => event s i
  | .deliver a b => execLinkDeliver a b s
  | .tick n => .next (s.walkAhead.pass n)

/-- A move that starts or runs harts: none while the package is halted (R29). -/
def unlessHalted (f : State → Out) (s : State) : Out := if s.halted then .next s else f s

/-- The moves that a hart slot may make by itself, its lease's arbiter among them. -/
def hartMoves (x : Hart) : List (State → Out) :=
  if x.occ = .empty then []
  else [fun s => act s (.core x.id.coreId), fun s => act s (.convoy x.id), unlessHalted (execBlockFinish x.id),
    execCopyEntry x.id false, execCopyEntry x.id true,
    execFabricEntry x.id .here, execReplyArrive x.id, unlessHalted (execVwaitvWake x.id), unlessHalted (execVwaitvTimeout x.id), execDrainTimeout x.id,
    execSpillDone x.id, execCancelLand x.id, execCancelTimeout x.id, execHartRetire x.id, execPreemptComplete x.id, moveLands x.id, execMoveTimeout x.id,
    execRevocationDeadline x.lease.die x.lease.clu]

/-- The moves of a core with messages. -/
def coreMoves (k : CoreId) : List (State → Out) := [execMessageArrive k, fun s => act s (.core k)]

/-- The moves of a die. -/
def dieMoves (d : Nat) : List (State → Out) :=
  [execStewardServiceDone d, execStewardRetry d, execTokenStep d, unlessHalted (execNodeDispatch d), execReservation d,
    unlessHalted (execFoldedHartStart d), unlessHalted (execPreemptRestart d), execAuditInterval d, execAuditPendingWrite d,
    execTraceBatchWrite d 0, execTraceBatchWrite d 1, execTraceBatchWrite d 2, execTraceBatchWrite d 3,
    pickMove d, execLinkDeliver d ((d + 1) % 4), execLinkDeliver d ((d + 2) % 4), execLinkDeliver d ((d + 3) % 4)]
    ++ (List.range 16).map (execClamp d) ++ (List.range 40).map (portResumes d)

/-- The moves of a launch. -/
def launchMoves (l : Launch) : List (State → Out) :=
  ((l.plan.map (·.1)).flatMap fun d => [unlessHalted (execPrepare l.run d), execAck l.run d, execNack l.run d, execCommit l.run d,
    execAbort l.run d]) ++ [execLaunchTimeout l.run]

/-- The moves of the whole package. -/
def packageMoves : List (State → Out) :=
  [execLockGrant, execLockTimeout, hostResumes, execHostRequestTimeout, execKeyload, execRelease, execAudset, execAudlog, execCheckpt, execAttest,
    execIdent, execBadcmd, execMailboxDone]

/-- Every move that the package may make by itself; one that is not possible now leaves the state (log 9). -/
def State.ownMoves (s : State) : List (State → Out) :=
  s.harts.flatMap hartMoves ++ (s.cores.map (·.id)).flatMap coreMoves ++ (List.range 4).flatMap dieMoves
    ++ s.engines.launches.flatMap launchMoves ++ s.engines.attached.map (fun a => execWalkVisit a.header.toNat) ++ packageMoves

/-- The next move: from the agenda, which the outside world fills; else the package's own moves in turn, and after them a
cycle passes (log 6). -/
def move (s : State) : Out :=
  match s.agenda with
  | a :: rest => act { s with agenda := rest } a
  | [] =>
    let own := s.ownMoves
    let s := { s with turn := s.turn + 1 }
    match own[(s.turn - 1) % (own.length + 1)]? with
    | some f => f s
    | none => .next (s.walkAhead.pass 1)

/-- The tables and the code frame that `placeWord` uses: a root at 0x40_0000 and one page at 0x1_0000. -/
def placeTables (st : Store) (key : Nat) (w nbytes : Nat) : Store :=
  let own (o : Table Nat) (f v : Nat) : Table Nat := Table.set freeOwner o f v
  let b := (((st.bytes.writeN 0x400000 8 0x420001).writeN 0x420000 8 0x430001).writeN 0x430000 8 0x431001).writeN 0x431008 8
    (key * 2 ^ 56 + 0x440000 + 0x3F)
  let k0 := if st.keyLoaded 0 then st.keys else Table.set KeySlot.empty st.keys 0 (.loaded 0 1)
  let st := { st with keys := k0 }
  let k1 := if st.keyLoaded key then st.keys else Table.set KeySlot.empty st.keys key (.loaded 0 1)
  { st with keys := k1, bytes := b.writeN 0x440000 nbytes w, tlb := []
            owners := own (own (own (own st.owners 0x40 0) 0x42 0) 0x43 0) 0x44 key }

/-- The state in which the next step issues a scalar word (log 2). -/
def placeScalar (s : State) (w : Nat) : State :=
  let s := s.onStore fun st => placeTables st s.cur.base.key.toNat w 4
  let s := s.onCore s.cur.id.coreId fun c => { c with queue := [], last := (s.cur.id.slot + 6) % 7, chose := none }
  let s := s.onCluster s.cur.id.die s.cur.id.clu fun c => { c with force := 16, clamp := false }
  let m := s.cur.id.coreId.messageSlot
  let s := if (s.hart m).handler.isSome then s.onHart m fun x => { x with handler := none } else s
  let s := s.onCur fun x =>
    { x with occ := .running, handler := none,
             base := { x.base with pc := 0x10000, ptroot := 0x400000 },
             trap := { x.trap with vtrap := none, held := [], afterTret := true },
             wait := { x.wait with stall := none, cancel := none, preempt := false },
             lease := { x.lease with state := if x.lease.state = .suspended then .none else x.lease.state
                                     pri := if x.place.run.isNone then 7 else x.lease.pri } }
  let s := [0, 1, 2, 3].foldl (init := s) fun s d => s.onDie d fun x => { x with boot := { x.boot with fail := 0 } }
  { s with agenda := [.issue s.cur.id] }

/-- The words of a convoy that begins with a word: without C a VNOP ends it. -/
def convoyOf (w : Nat) : Nat := if w.testBit 63 then w else w + 0xFD00000000000000 * 2 ^ 64

/-- The state in which the next step runs a vector word, first of its convoy, in the strip of a HELD lease of at least
one Pod (log 2). -/
def placeVector (s : State) (w : Nat) : State :=
  let s := placeScalar s 0
  let s := s.onStore fun st => placeTables st s.cur.base.key.toNat (convoyOf w) 16
  let s := s.onCur fun x =>
    let b : Block := { addr := 0x10000, regs := x.base.g, head := 0, words := [], next := 0, steps := 0, y := x.vec.yBlock, ended := false, since := s.store.serial }
    let y := { x with
      trap := { x.trap with bpctl := true }
      wait := x.wait.noVwait
      vec := { x.vec with queue := [b], reopen := none }
      lease := { x.lease with state := .held, pods := if x.lease.pods = [] then [0] else x.lease.pods, susp := none } }
    y.openStrip [⟨0x10000, x.base.g, 0, s.store.serial⟩]
  { s with agenda := [.convoy s.cur.id] }

/-- The state in which the next step runs the instruction of a table word (log 2). -/
def placeWord (s : State) (nbits w : Nat) : State :=
  if nbits ≤ 32 then placeScalar s (w % 2 ^ 32) else placeVector s (w % 2 ^ 64)

end Sys2Proof.Machine
end

