-- ==== Sys2Proof/Machine/Step.lean ====
section
/-! DEFINITION. One step of the package, and the state in which the next step runs a given instruction. -/

namespace Sys2Proof.Machine

/-- One step: the head of the agenda, or when there is none the next agent in turn (log 6). -/
def step (s : State) : Host.Outcome State Fault Refusal := move s

/-- The state in which the next step runs the instruction of a table word (log 2). -/
def State.withFetchWord (s : State) (nbits w : Nat) : State := placeWord s nbits w

end Sys2Proof.Machine
end

