-- ==== Sys2Proof/Safety.lean ====
section
/-! DEFINITION. What counts as a safe run, and the relations between states in which the claims are written: the canonical
memories, what an instruction leaves unchanged, where an access may go. -/

namespace Sys2Proof.Machine

/-! ### Safe runs -/

/-- Every memory of the state stands in its canonical form: the device's bytes, the mailbox buffer, the MSI-X table, the engines' own copies
of graph fields, the old words that fetches may still return. -/
def State.memOk (s : State) : Prop :=
  s.store.bytes.wf = true ∧ s.port.mbdata.wf = true ∧ s.port.msix.wf = true ∧ s.engines.own.wf = true ∧ ∀ e ∈ s.store.stale, e.old.wf = true

/-- A step of a safe run answers a next state. -/
def State.goesOn (s : State) : Prop := ∃ t, step s = .next t

/-- An outcome that is a next state, or the fault of a vector word without a strip. -/
def goesOnUnlessStripless (o : Out) : Prop := (∃ t, o = .next t) ∨ o = .fault .noStrip

/-! ### What an instruction leaves unchanged -/

/-- `t` differs from `s` in the hart in focus alone. -/
def State.sameButCur (s t : State) : Prop := t = { s with cur := t.cur }

/-- The hart `y` is `x` but for the general registers and the PC; an instruction that has retired leaves no stall, and
breakpoints match again (R268). -/
def Hart.onlyRegs (x y : Hart) : Prop :=
  y = { x with
    base := { x.base with g := y.base.g, pc := y.base.pc }
    wait := { x.wait with stall := none }
    trap := { x.trap with afterTret := false } }

/-- The same, but a store may also clear links and wake a timed wait of the hart (R359, R363). -/
def Hart.onlyRegsAndLinks (x y : Hart) : Prop :=
  y = { x with
    base := { x.base with g := y.base.g, pc := y.base.pc }
    wait := { x.wait with stall := none, woken := y.wait.woken }
    trap := { x.trap with afterTret := false }
    links := y.links }

/-- Every other hart stands as before, but that a write may clear its links and wake its timed wait (R359, R363). -/
def State.othersKeep (s t : State) : Prop :=
  List.Forall₂ (fun x y : Hart => y = { x with links := y.links, wait := { x.wait with woken := y.wait.woken } }) s.others t.others

/-- `t` is `s` but for the general registers and the PC of the hart in focus: memory, flags, every special register and
every other hart stand as before. -/
def State.onlyRegs (s t : State) : Prop := s.sameButCur t ∧ s.cur.onlyRegs t.cur

/-- Every general register but `d` reads as before. -/
def State.keepsRegs (s t : State) (d : Gpr) : Prop := ∀ r, r ≠ d → t.g r = s.g r

/-- The instruction has retired with the result `v`: gD holds it (g0 reads 0), the next word follows, every other
general register reads as before and nothing else has changed: no flag, no special register, no byte of memory (R276, R304). -/
def State.resultIs (s t : State) (d : Gpr) (v : Word) : Prop :=
  t.g d = (if d = 0 then 0 else v) ∧ t.pc = s.pc + 4 ∧ s.keepsRegs t d ∧ s.onlyRegs t

/-- The instruction has retired to `pc` without a result, and nothing else has changed. -/
def State.wentTo (s t : State) (pc : Word) : Prop := t.pc = pc ∧ (∀ r, t.g r = s.g r) ∧ s.onlyRegs t

/-- Every byte of memory outside `n` bytes at `a` and outside the 8 bytes of the leaf entry at `leaf` reads as before. -/
def State.keepsBytes (s t : State) (a n : Nat) (leaf : Option Nat) : Prop :=
  ∀ x, (x < a ∨ a + n ≤ x) → (∀ l, leaf = some l → x < l ∨ l + 8 ≤ x) → t.store.bytes.read x = s.store.bytes.read x

/-! ### Accesses -/

/-- The leaf entry that the walk of an address ends at, whose A and D bits an access sets (R174). -/
def State.leafOf (s : State) (va : Word) : Option Nat :=
  match walk s s.cur.base.ptroot va.toNat with
  | .leaf a _ _ => some a
  | _ => none

/-- A load of `n` bytes that finds its place `p` (with `s1` after the translation) in the memory of the device (R314). -/
def State.loadsAt (s : State) (va : Word) (n : Nat) (p : Spot) (s1 : State) : Prop :=
  va.toNat % n = 0 ∧ resolve s s.cur.cx .read va = .ok p s1 ∧ s1.check p n false = none ∧ spaceOf p.loc ≠ .host
    ∧ s1.readHeld s.cur.cx va p = false

/-- A store of `n` bytes that finds its place `p` in the memory of the device, and no lock or held link there (R314, R361, R36), nor a
sync word that arrivals may reach (R180), an engine field (R74) or a leaf that software may not change so (R183). -/
def State.storesAt (s : State) (va : Word) (n : Nat) (p : Spot) (s1 : State) : Prop :=
  va.toNat % n = 0 ∧ resolve s s.cur.cx .write va = .ok p s1 ∧ s1.check p n true = none ∧ spaceOf p.loc ≠ .host
    ∧ s1.writeLocked s.cur.cx va p = false ∧ (s1.setAD s.cur.base.ptroot va p true).syncHit p.loc n = []
    ∧ (s1.setAD s.cur.base.ptroot va p true).wild p n false = []

/-- An atomic of `n` bytes, a CAS or not, that finds its place `p` in the memory of the device, not locked, and no sync word that arrivals may
reach (R314, R317), engine field (R74) or leaf that it may not change (R183). -/
def State.updatesAt (s : State) (va : Word) (n : Nat) (cas : Bool) (p : Spot) (s1 : State) : Prop :=
  va.toNat % n = 0 ∧ resolve s s.cur.cx .readWrite va = .ok p s1 ∧ s1.check p n true = none ∧ spaceOf p.loc ≠ .host
    ∧ s1.writeLocked s.cur.cx va p = false ∧ (s1.setAD s.cur.base.ptroot va p true).syncHit p.loc n = []
    ∧ (s1.setAD s.cur.base.ptroot va p true).wild p n cas = []

/-- A load of `n` bytes of host memory that finds its place (R48, R314). -/
def State.loadsHost (s : State) (va : Word) (n : Nat) (p : Spot) (s1 : State) : Prop :=
  va.toNat % n = 0 ∧ resolve s s.cur.cx .read va = .ok p s1 ∧ s1.check p n false = none ∧ spaceOf p.loc = .host
    ∧ s1.readHeld s.cur.cx va p = false

/-- Every access of a kind to an address reaches `p` (R167, R173): through the window, or by a leaf that allows it, of which the requester's
cache holds no other copy (R175). -/
def State.reaches (s : State) (cx : Ctx) (k : Kind) (va : Word) (p : Spot) : Prop :=
  (inWindow va = true ∧ k ≠ .fetch ∧ windowSpot cx va = some p)
    ∨ (inWindow va = false ∧ canonical va = true ∧ ∃ a e l, walk s cx.root va.toNat = .leaf a e l
        ∧ leafAllows s.pkgid.toNat cx.user cx.key k e l va.toNat = true ∧ p = ⟨leafLoc e l va.toNat, bitsOf e 63 56, 2⟩
        ∧ ∀ t ∈ s.store.tlb, (t.holder = cx.holder ∨ t.holder = ({ cx with ahead := true } : Ctx).holder) → t.ptroot = cx.root → t.page ≤ va.toNat → va.toNat < t.page + t.size → t.leaf = leafCore e)

/-- Element `x` of a vector memory instruction lies at `p` (R354, R355): aligned, in its lane's store or where its address leads. -/
def VMem.finds (m : VMem) (s : State) (k : Kind) (x : Elem) (p : Spot) : Prop :=
  (m.q.esz ≠ 0 → x.addr % (m.q.bytes : Int) = 0) ∧
    match x.lane with
    | some _ => 0 ≤ x.addr ∧ x.addr < 8192 ∧ p = ⟨x.addr.toNat, s.cur.base.key.toNat, 2⟩
    | none => s.reaches s.cur.vectorCx k x.va p ∧ (m.virt = true → spaceOf p.loc ≠ .host)

/-- It lies there, and can be read at once: in the device's memory, past the checks of R314, its link not held. -/
def VMem.readable (m : VMem) (s : State) (x : Elem) (p : Spot) : Prop :=
  m.finds s .read x p
    ∧ (x.lane = none → spaceOf p.loc ≠ .host ∧ s.check p m.q.bytes false = none ∧ s.linkHeld s.cur.id.die p.loc = false)

/-- What reading the element gives: of ESZ 0, its nibble. -/
def VMem.holds (m : VMem) (s : State) (x : Elem) (p : Spot) : Nat :=
  let v := match x.lane with
    | some l => s.cur.vec.laneRead (laneLoc l p.loc) m.q.bytes
    | none => s.peek p m.q.bytes
  if m.q.esz = 0 then (if x.high then v / 16 else v) % 16 else v

/-! ### Scalar instructions -/

/-- The checks of R290 let the instruction run in the hart in focus. -/
def State.admits (s : State) (i : Instr) : Prop := s.cur.refuses i = none

/-- A scalar commit point has nothing to wait for and no strip to end: the vector queue is empty, no strip stands open, no
revocation and no move waits for a boundary. -/
def State.atRest (s : State) : Prop :=
  s.cur.vec.queue = [] ∧ s.cur.vec.strip = none ∧ s.cur.vec.reopen = none ∧ s.cur.lease.draining = none ∧ s.cur.wait.move = none

/-- The slot in focus issues an instruction: it runs, and nothing is to be taken at this boundary before it (R226). -/
def State.atBoundaryFree (s : State) : Prop :=
  s.cur.occ = .running ∧ s.cur.cancelReady s.cycle = false ∧ (s.cur.wait.preempt = false ∨ s.cur.lease.state = .held)
    ∧ s.cur.stopped = false ∧ (s.cur.trap.vtrap = none ∨ s.cur.trap.depth ≠ 0) ∧ (s.cur.trap.held = [] ∨ s.cur.trap.depth ≠ 0)
    ∧ s.roundHolds s.cur = false

/-- The slot in focus issues an instruction of its program: no breakpoint matches at the PC (R268). -/
def State.atProgram (s : State) : Prop :=
  s.atBoundaryFree ∧ s.cur.handler = none ∧ (s.cur.trap.afterTret = true ∨ s.cur.breakpoint false s.cur.base.pc = none)

/-- Slot 7, in focus, issues an instruction of a handler that has a program and has not run over (R152-R154). -/
def State.atHandler (s : State) : Prop :=
  s.atBoundaryFree ∧ ∃ h, s.cur.handler = some h ∧ 16 ≤ h.msg.hnd.toNat ∧ h.issued < 256
    ∧ h.pending = false ∧ h.ready ≤ s.cycle

/-- The core of a program slot chooses it in this cycle (R146): the throttle allows the cycle and the core has not chosen in it; no handler
runs or may start; no other program slot runs. -/
def State.turnOf (s : State) (h : HartId) : Prop :=
  s.coreHeld h.coreId = false ∧ h.slot < 7 ∧ (s.hart h.coreId.messageSlot).handler = none
    ∧ ((s.core h.coreId).queue = [] ∨ s.handlerAllowed h.coreId = false)
    ∧ ∀ n, n < 7 → n ≠ h.slot → (s.hart ⟨h.die, h.clu, h.core, n⟩).occ ≠ .running

/-! ### Traps (R227-R229) -/

/-- The scratch register of a level: USCR, SSCR, MSCR. -/
def Hart.scratch (x : Hart) (l : Level) : Word :=
  match l with | .user => x.trap.uscr | .supervisor => x.trap.sscr | .management => x.trap.mscr

/-- A trap has entered the handler of `tgt` (R227): the frame of the old depth, the exchange of g31, the level, TDEPTH, the PC; the
other general registers, the flags and the vector side as before; no byte of memory but the frame's 64. -/
def State.entered (s t : State) (tgt : Level) (cause : Nat) (tval epc rpc : Word) (vec : Bool) : Prop :=
  t.frame t.cur s.cur.trap.depth = ⟨BitVec.ofNat 8 cause, epc, tval, rpc, BitVec.ofNat 2 s.cur.base.level.code, vec, vec⟩
    ∧ t.cur.base.level = tgt ∧ t.cur.trap.depth = s.cur.trap.depth + 1 ∧ t.pc = s.cur.entryOf tgt
    ∧ t.g 31 = s.cur.scratch tgt ∧ t.cur.scratch tgt = s.g 31 ∧ (∀ r, r ≠ 31 → t.g r = s.g r)
    ∧ t.cur.fp = s.cur.fp ∧ t.cur.vec = s.cur.vec ∧ t.cur.lease = s.cur.lease ∧ s.othersKeep t
    ∧ s.keepsBytes t (contextLoc s.cur.id + 64 * s.cur.trap.depth) 64 none

/-! ### Vector instructions -/

/-- A vector instruction may run: a strip stands open, a block runs, its word is legal and its features are present (R291). -/
def State.vectorOk (s : State) (i : Instr) : Prop :=
  s.vectorReady = true ∧ i.legal = true ∧ s.cur.hasFeatures i = true

/-- A vector instruction without memory has retired: everything stands as before but vector and mask registers, result slots, the
strip's own notes, the position in the block, and trace records; FLAGS and EIDX are the same (R329). -/
def State.vecFrame (s t : State) : Prop :=
  t = { s with
    cur := { s.cur with
      vec := { s.cur.vec with
        regs := { t.cur.vec.regs with w := s.cur.vec.regs.w }, yBlock := t.cur.vec.yBlock, queue := t.cur.vec.queue
        strip := t.cur.vec.strip, last := t.cur.vec.last }
      wait := { s.cur.wait with vstall := none } }
    dies := t.dies }

/-- The strip's pending flags and indices stand as before. -/
def State.noFlags (s t : State) : Prop :=
  (t.cur.vec.strip.map fun x => (x.flags, x.eidx)) = (s.cur.vec.strip.map fun x => (x.flags, x.eidx))

/-- The strip's pending indices have taken up the contributions `fl` of elements, each flag by the lowest element that raised it (R250);
flags without an index stand. -/
def State.pends (s t : State) (fl : List (Nat × FlagSet)) : Prop :=
  ∀ x, s.cur.vec.strip = some x → ∃ y, t.cur.vec.strip = some y ∧ y.flags = x.flags
    ∧ ∀ (k : Fin 5) (v : Nat), y.eidx[k].toNat < v ↔ x.eidx[k].toNat < v ∨ ∃ p ∈ fl, p.1 < v ∧ p.2.getLsbD (4 - k) = true

/-- The contributions of the active elements of a range. -/
def State.contributions (s : State) (g : Range) (f : VFields) (fl : Nat → FlagSet) : List (Nat × FlagSet) :=
  ((List.range g.vl).filter fun e => s.act g f e).map fun e => (e, fl e)

/-- What `put` makes of element `e` (R293): `v` where it is active; else, below VL, 0 with ZM; a pad element 0; else the old value. -/
def State.putsEl (s : State) (g : Range) (f : VFields) (e v old : Nat) : Nat :=
  if s.act g f e then v else if e < g.vl then (if f.zm then 0 else old) else if e < g.vbl then 0 else old

/-- vD has received `op e` in each active element `e`, masked, zeroed and padded as `put` says; no other register has changed. -/
def State.resultV (s t : State) (f : VFields) (wide w : Nat) (op : Nat → Nat) : Prop :=
  (∀ e, elBits (t.v f.d) w e = s.putsEl (s.cur.range wide) f e (op e % 2 ^ w) (elBits (s.v f.d) w e))
    ∧ (∀ r, r ≠ f.d → t.v r = s.v r) ∧ t.cur.vec.regs.m = s.cur.vec.regs.m ∧ t.cur.vec.yBlock = s.cur.vec.yBlock ∧ s.vecFrame t

/-- Mask mD has received bit `op e` in each active element, over the range `g`; no other register has changed. -/
def State.resultM (s t : State) (f : VFields) (g : Range) (op : Nat → Bool) : Prop :=
  (∀ e, ((t.m f.d.toNat).testBit e).toNat = s.putsEl g f e (op e).toNat ((s.m f.d.toNat).testBit e).toNat)
    ∧ (∀ n, n % 8 ≠ f.d.toNat % 8 → t.m n = s.m n) ∧ t.cur.vec.regs.v = s.cur.vec.regs.v ∧ t.cur.vec.yBlock = s.cur.vec.yBlock
    ∧ s.vecFrame t

/-- Result slot QS holds `v`; no register has changed. -/
def State.resultY (s t : State) (f : VFields) (v : Nat) : Prop :=
  t.cur.vec.yBlock[f.qs.toNat % 8]'(Nat.mod_lt _ (by decide)) = BitVec.ofNat 64 v
    ∧ (∀ k : Fin 8, k.val ≠ f.qs.toNat % 8 → t.cur.vec.yBlock[k] = s.cur.vec.yBlock[k])
    ∧ t.cur.vec.regs = s.cur.vec.regs ∧ s.vecFrame t

/-! ### Vector instructions that end a strip (R358) -/

/-- The state with other bytes in memory. -/
def State.withBytes (s : State) (b : Mem) : State := { s with store := { s.store with bytes := b } }

/-- The leaf whose A and D bits an access of the hart in focus sets at a place: none in the scratchpad window (R174). -/
def State.leafBehind (s : State) (x : Elem × Spot) : Option Nat := if x.2.win = 2 then s.leafOf x.1.va else none

/-- `b` is the memory of `s` but for `n` bytes at each place and for the A and D bits of the leaves behind the places. -/
def State.differsAt (s : State) (xs : List (Elem × Spot)) (n : Nat) (b : Mem) : Prop :=
  (∀ a, (∀ x ∈ xs, (a < x.2.loc ∨ x.2.loc + n ≤ a) ∧ ∀ l, s.leafBehind x = some l → a < l ∨ l + 8 ≤ a) → b.read a = s.store.bytes.read a)
    ∧ ∀ x ∈ xs, ∀ l, s.leafBehind x = some l → leafCore (b.readN l 8) = leafCore (s.store.bytes.readN l 8)

/-- The elements `xs` lie in the device's memory, aligned, in owned storage, apart from the leaves behind them; and whatever they put there, the
same leaves stand behind them, and a write meets no sync word that arrivals may reach (R180), engine field (R74) or leaf with MIG = 1 (R183). -/
def State.plainPlaces (s : State) (xs : List (Elem × Spot)) (n : Nat) (write : Bool) : Prop :=
  s.store.bytes.wf = true
    ∧ (∀ x ∈ xs, x.2.loc % n = 0 ∧ spaceOf x.2.loc ≠ .host ∧ s.store.ownerOf x.2.loc ≠ freeOwner
        ∧ ∀ y ∈ xs, ∀ l, s.leafBehind y = some l → l + 8 ≤ x.2.loc ∨ x.2.loc + n ≤ l)
    ∧ ∀ b : Mem, b.wf = true → s.differsAt xs n b → ∀ x ∈ xs, (s.withBytes b).leafBehind x = s.leafBehind x
        ∧ (write = true → (s.withBytes b).syncHit x.2.loc n = [] ∧ (s.withBytes b).wild x.2 n false = [])

/-- A new strip stands open; or, where elements met Poison, a vector trap with the address of the lowest of them waits (R358). -/
def State.newStrip (t : State) (bad : List (Nat × Word)) : Prop :=
  (bad = [] → ∃ y, t.cur.vec.strip = some y ∧ y.aborted = false ∧ y.stores = [])
    ∧ ∀ x ∈ bad, (∀ y ∈ bad, x.1 ≤ y.1) → ∃ v, t.cur.trap.vtrap = some v ∧ v.cause = 0x0E ∧ v.tval = x.2

/-- An operation of VAMO (R362) on the value `m` and the operand `d` of `w` bits: the new value and the flags. -/
def vectorAtomic (op w m d : Nat) : Nat × FlagSet :=
  let a := BitVec.ofNat w m
  let b := BitVec.ofNat w d
  match op with
  | 0 => ((a + b).toNat, 0)
  | 1 => ((a &&& b).toNat, 0)
  | 2 => ((a ||| b).toNat, 0)
  | 3 => ((a ^^^ b).toNat, 0)
  | 4 => ((if a.toInt ≤ b.toInt then a else b).toNat, 0)
  | 5 => ((if a.toInt ≤ b.toInt then b else a).toNat, 0)
  | 6 => ((if a.toNat ≤ b.toNat then a else b).toNat, 0)
  | 7 => ((if a.toNat ≤ b.toNat then b else a).toNat, 0)
  | 8 => (b.toNat, 0)
  | _ => deliver .f32 0 (addV 0 (valOf .f32 m) (valOf .f32 d))

/-- A condition of VWAITV (R363) on the value `m` and the comparand `c` of `w` bits. -/
def timedHolds (cond w m c : Nat) : Bool :=
  let a := BitVec.ofNat w m
  let b := BitVec.ofNat w c
  match cond with
  | 0 => a = b
  | 1 => a ≠ b
  | 2 => b.toNat ≤ a.toNat
  | 3 => a.toNat < b.toNat
  | 4 => b.toInt ≤ a.toInt
  | _ => a.toInt < b.toInt

/-- A round of a VWAITV in `u`, where it watches `ws` until cycle `d`, leads to `t` (R363): where the deadline has come or no element is left
unsatisfied it ends, with the unsatisfied ones in mD; else it goes on waiting for these, and no register changes. An element that meets Poison
is read no more. -/
def VMem.roundGives (m : VMem) (u t : State) (ws : List Watch) (d : Nat) : Prop :=
  let bad : Watch → Bool := fun w => (u.poisonCheck ⟨w.loc, u.cur.base.key.toNat, w.win⟩ m.q.bytes false).isSome
  let holds : Watch → Bool := fun w =>
    timedHolds (bitsOf m.f.fnN 6 3) m.w (u.peek ⟨w.loc, u.cur.base.key.toNat, w.win⟩ m.q.bytes) (m.g.el (u.v m.f.a) m.w w.elem)
  let left := ws.filter fun w => !bad w && !holds w
  ((d ≤ u.cycle ∨ left = []) → t.cur.wait.deadline = none ∧ t.cur.vec.regs.v = u.cur.vec.regs.v
      ∧ (∀ e, e < m.g.vl → ((t.m m.f.d.toNat).testBit e = true ↔ ∃ w ∈ left, w.elem = e))
      ∧ t.newStrip ((ws.filter bad).map fun w => (w.elem, w.va)))
    ∧ (¬ (d ≤ u.cycle ∨ left = []) → t.cur.wait.deadline = some d ∧ t.cur.wait.watch = left ∧ t.cur.vec.regs = u.cur.vec.regs)

/-! ### Matrix instructions -/

/-- A matrix instruction has retired: of the tiles only `d` may have changed; vector and mask registers, general registers, FLAGS, the
lease, memory and every other hart stand as before (R375). -/
def State.tileFrame (s t : State) (d : Nat) : Prop :=
  (∀ k : Fin 4, k.val ≠ d % 4 → t.cur.vec.regs.w[k] = s.cur.vec.regs.w[k]) ∧ t.cur.vec.regs.v = s.cur.vec.regs.v
    ∧ t.cur.vec.regs.m = s.cur.vec.regs.m ∧ t.cur.base = s.cur.base ∧ t.cur.fp = s.cur.fp ∧ t.cur.lease = s.cur.lease
    ∧ t.store.bytes = s.store.bytes ∧ t.others = s.others

/-- The count that the Marrow holds for a cell: Mc′ + Mp (R382). -/
def State.marrowOf (s : State) (c : CellId) : Int :=
  (if s.cellReset c then 0 else marrowCount s.cur.vec.marrow c false) + marrowCount s.cur.vec.marrow c true

/-! ### Graphs -/

/-- The header and the records of a graph lie in HBM frames of its key slot, and the engine may read and write them (R73, R81). -/
def State.graphOpen (s : State) (a : Attached) : Prop :=
  ∀ off n, 0 < n → off + n ≤ 256 + 128 * a.ncount → spaceOf (a.spot off).loc = .hbm ∧ s.store.ownerOf (a.spot off).loc = a.slot.toNat
    ∧ s.check (a.spot off) n true = none ∧ s.check (a.spot off) n false = none

/-- Whatever stands in the records of a graph and in the word at `p`, a store of its engine to that word meets no leaf with MIG = 1 (R183) and no
engine field of a graph (R74). -/
def State.plainWord (s : State) (a : Attached) (p : Spot) : Prop :=
  let base := a.header.toNat % 2 ^ 44
  ∀ b : Mem, b.wf = true →
    (∀ x, (x < p.loc ∨ p.loc + 8 ≤ x) → (x < base ∨ base + 256 + 128 * a.ncount ≤ x) → b.read x = s.store.bytes.read x) →
    (s.withBytes b).wild p 8 false = []

end Sys2Proof.Machine
end

