-- ==== Sys2Proof/Certificates/Slice0/Obligations.lean ====
section
/-! DEFINITION. The statements about the model, one `Obligations.<Name>` each, and the tables they read. -/

namespace Sys2Proof.Machine

/-! ### Tables -/

/-- Scalar words with the instructions they stand for: those that R292, R306, R313, R316 and R318 work out, and one of each other
scalar family, put together from the field tables of R281 to R287. -/
def wordTable : List (Nat × Instr) :=
  [(0x08A3FFF4, .addi 5 3 0xFFF4), (0x54E2AC04, .ld 7 2 2 1 3 4), (0x3480FFFD, .beq 4 0 0xFFFD), (0x612A5F30, .amo 9 10 11 3 4 1 0),
   (0x04611000, .add 3 1 2), (0x04A6005C, .sext 5 6 1), (0x5CDDF7FF, .st 6 29 3 1 5 0x3FF), (0x64A63AE0, .cas 5 6 7 1 3 0),
   (0x74000540, .fence 5 4), (0x740007F0, .fence 7 0xF), (0x2C830123, .ldi 4 3 0x0123), (0x2C864567, .ldiK 4 2 0x4567),
   (0x50000000 + 30 * 2 ^ 16, .jr 0 30 0), (0x68000000 + 3 * 2 ^ 21 + 4 * 2 ^ 16 + 5 * 2 ^ 11 + 7 * 2 ^ 4 + 8, .fadd 3 4 5 7 1),
   (0x74000001 + 2 * 2 ^ 21 + 3 * 2 ^ 4, .wait 2 3), (0x78000002 + 7 * 2 ^ 16 + 8 * 2 ^ 11, .token 7 8), (0x7C000001, .tret),
   (0x80000000 + 9 * 2 ^ 21 + 0x070, .srd 9 0x070), (0x90000001 + 4 * 2 ^ 21 + 5 * 2 ^ 16 + 10 * 2 ^ 4, .vsetl 4 5 0 0 10),
   (0x94000005 + 1 * 2 ^ 21 + 2 * 2 ^ 16 + 3 * 2 ^ 11, .swarm 1 2 3), (0x98000002 + 2 * 2 ^ 16 + 3 * 2 ^ 11, .xsig 2 3)]

/-- Vector words with the instructions they stand for (R292), and one of the memory form (R352). -/
def vectorWordTable : List (Nat × Instr) :=
  [(0xA5204435A0700000, .vfma ⟨true, 4, 1, 2, 3, 2, true, 10, 7, 0, 0⟩),
   (0xFE00000000000000, .vstop ⟨true, 0, 0, 0, 0, 0, false, 0, 0, 0, 0⟩),
   (0x5800000000000000 + 6 * 2 ^ 51 + 10 * 2 ^ 28 + 3 * 2 ^ 16, .vld ⟨false, 6, 0, 0, 0, 0, false, 10, 0, 3, 0⟩)]

end Sys2Proof.Machine

open Sys2Proof Sys2Proof.Machine

/-! ### Encoding -/

/-- The words that the manual works out, and words put together from its field tables, decode to their instructions
(R281-R289, R292, R306, R313, R316, R318, R352). -/
def Obligations.DecodedWords : Prop :=
  (∀ p ∈ wordTable, decodeScalar p.1 = .ok p.2) ∧ (∀ p ∈ vectorWordTable, decodeVector p.1 = .ok p.2)

/-- A scalar instruction, with every operand at every value that its fields admit, is decoded from its own word (R281-R287). -/
def Obligations.ScalarDecodeOfEncode : Prop :=
  ∀ (i : Instr) (w : Nat), encode i = .scalar w → w < 2 ^ 32 ∧ decodeScalar w = .ok i

/-- A vector instruction, with every field at every value, is decoded from its own word (R288, R289). -/
def Obligations.VectorDecodeOfEncode : Prop :=
  ∀ (i : Instr) (w : Nat), encode i = .vector w → w < 2 ^ 64 ∧ decodeVector w = .ok i

/-- No bit of a scalar word is dropped: a word that decodes is the word of its instruction (R281-R287, R290).
No bit of a vector word is dropped (R288, R289, R291).
The words 0x0000_0000 and 0xFFFF_FFFF and every word of an unassigned opcode decode to nothing; the words of the two extension
spaces, and no others, are rejected as such (R283, R289-R292). -/
def Obligations.EncodeOfDecode : Prop :=
  ((∀ (w : Nat) (i : Instr), w < 2 ^ 32 → decodeScalar w = .ok i → encode i = .scalar w)
  ∧ (∀ (w : Nat) (i : Instr), w < 2 ^ 64 → decodeVector w = .ok i → encode i = .vector w))
  ∧ (decodeScalar 0 = .error .allZeros ∧ decodeScalar 0xFFFFFFFF = .error .allOnes
  ∧ (∀ w, 0 < w → w < 0xFFFFFFFF → (w / 2 ^ 26 = 0 ∨ (0x27 ≤ w / 2 ^ 26 ∧ w / 2 ^ 26 ≤ 0x37) ∨ 0x3C ≤ w / 2 ^ 26) →
      decodeScalar w = .error .unassigned)
  ∧ (∀ w, w < 2 ^ 32 → (decodeScalar w = .error .extension ↔ 0x38 ≤ w / 2 ^ 26 ∧ w / 2 ^ 26 ≤ 0x3B))
  ∧ (∀ w, w < 2 ^ 64 → (decodeVector w = .error .extension ↔ 0x70 ≤ w / 2 ^ 56 % 128 ∧ w / 2 ^ 56 % 128 ≤ 0x73)))

/-! ### Steps -/

/-- A step runs the decoded instruction. (1) The slot at the head of the agenda, which its core chooses in this cycle, which runs a program
and has nothing to take at this boundary, fetches the word at its PC; the word decodes: the step is `exec` of the instruction, after
which the core notes the slot as its last (R146); where the instruction has only stalled, or been stopped, nothing more happens. (2) The same
for a handler in slot 7 (R152, R153), whose instruction is counted once it has issued. (3) The convoy at the head of the agenda runs its next
member. (4) An event of the agenda takes place, unless it would run a hart of a halted package (R29), or is a request of the host behind
others that wait (R54). (5) An event that is slot 7's (the start of a handler, a built-in handler) takes place where the core chooses slot 7 in
this cycle, and not where its throttle bars the cycle or it has chosen (R12, R146). The agenda is the model's (log 6); before a core chooses,
slots that have ceased to be ready stop holding handlers back, and after an instruction that ends a handler the ready ones do (log 32). -/
def Obligations.StepRunsDecoded : Prop :=
  (∀ (s s1 t : State) (h : HartId) (rest : List Act) (w : Nat) (i : Instr), let u : State := ({ s with agenda := rest } : State).prune h.coreId
    s.agenda = .issue h :: rest → s.halted = false → u.turnOf h → (u.focus h).atProgram → (u.focus h).fetch = .ok w s1 →
    decodeScalar w = .ok i → exec i s1 = .next t →
    (t.passedOver h = false → step s = .next (t.noteIssue h.coreId h.slot))
    ∧ (t.passedOver h = true → (∀ n, n < 7 → n ≠ h.slot → (t.hart ⟨h.die, h.clu, h.core, n⟩).occ ≠ .running) →
      (t.core h.coreId).chose = (s.core h.coreId).chose → step s = .next t))
  ∧ (∀ (s s1 t : State) (k : CoreId) (rest : List Act) (w : Nat) (i : Instr), let u : State := ({ s with agenda := rest } : State).prune k
    s.agenda = .issue k.messageSlot :: rest → s.halted = false → u.coreHeld k = false →
    (u.focus k.messageSlot).atHandler → (u.focus k.messageSlot).fetch = .ok w s1 →
    decodeScalar w = .ok i → exec i s1 = .next t → (t.onCur Hart.countIssued).passedOver k.messageSlot = false →
    step s = .next (((t.onCur Hart.countIssued).noteHandler k 7).owe k))
  ∧ (∀ (s : State) (h : HartId) (rest : List Act) (b : Block) (bs : List Block) (i : Instr),
    s.agenda = .convoy h :: rest → s.halted = false → (({ s with agenda := rest } : State).focus h).convoyReady = true →
    (({ s with agenda := rest } : State).focus h).cur.vec.queue = b :: bs → b.words ≠ [] → b.nextInstr = some i →
    step s = exec i (({ s with agenda := rest } : State).focus h))
  ∧ (∀ (s : State) (rest : List Act) (i : Instr), let u : State := { s with agenda := rest }
    s.agenda = .event i :: rest →
    ((s.halted = true ∧ runsHart i = true) → step s = .next u)
    ∧ ((s.halted = true → runsHart i = false) → slotSeven i = none →
      (∀ r, s.port.held ≠ [] → hostRequest i = some r → step s = .next (u.holdHost r))
      ∧ ((s.port.held = [] ∨ hostRequest i = none) → step s = exec i u)))
  ∧ (∀ (s : State) (rest : List Act) (i : Instr) (k : CoreId), let u : State := ({ s with agenda := rest } : State).prune k
    s.agenda = .event i :: rest → slotSeven i = some k → s.halted = false →
    (u.coreHeld k = true → step s = .next { s with agenda := rest })
    ∧ (i = .handlerStart k → u.coreHeld k = false → (u.hart k.messageSlot).handler = none → u.startsHandler k = true →
      step s = exec i (u.noteHandler k 8))
    ∧ (∀ (h : Handler) (t : State), u.coreHeld k = false → (u.hart k.messageSlot).handler = some h → h.pending = false → h.ready ≤ s.cycle →
      builtin k h.msg.hnd.toNat = some i → (u.focus k.messageSlot).atBoundaryFree → exec i (u.focus k.messageSlot) = .next t →
      t.passedOver k.messageSlot = false → step s = .next ((t.noteHandler k 7).owe k)))

/-- A slot that runs a program and has nothing to take decides its word in the order of R290: a word that does not decode takes
Illegal Encoding, a word of the extension space Emulation; a word with illegal fields, of an absent feature, or barred in the
context takes Illegal Encoding, before an instruction reserved to a level above the hart's (TLBI, R409) takes Privileged; TVAL is
the word. -/
def Obligations.WordsDecidedInOrder : Prop :=
  (∀ (s s1 : State) (w : Nat), s.atProgram → s.fetch = .ok w s1 → decodeScalar w = .error .extension →
    issueHere s = .next (s1.scalarTrap 0x02 (BitVec.ofNat 64 w)))
  ∧ (∀ (s s1 : State) (w : Nat) (e : Reject), s.atProgram → s.fetch = .ok w s1 → decodeScalar w = .error e → e ≠ .extension →
    issueHere s = .next (s1.scalarTrap 0x01 (BitVec.ofNat 64 w)))
  ∧ (∀ (s : State) (i : Instr) (w : Nat), encode i = .scalar w → (i.legal = false ∨ s.cur.hasFeatures i = false ∨ s.cur.bars i = true) →
    exec i s = .next (s.scalarTrap 0x01 (BitVec.ofNat 64 w)))
  ∧ (∀ (s : State) (a b : Gpr) (m : BitVec 2) (w : Nat), encode (.tlbi a b m) = .scalar w → s.cur.base.level = .user →
    (Instr.tlbi a b m).legal = true → s.cur.hasFeatures (.tlbi a b m) = true → s.cur.bars (.tlbi a b m) = false →
    exec (.tlbi a b m) s = .next (s.scalarTrap 0x03 (BitVec.ofNat 64 w)))

/-! ### Integer instructions -/

/-- The two-source instructions of R305 but for the divisions, with what each gives, written on 64-bit words. -/
def Sys2Proof.Machine.intRows : List ((Gpr → Gpr → Gpr → Instr) × (Word → Word → Word)) :=
  [(.add, fun a b => a + b), (.sub, fun a b => a - b), (.and, fun a b => a &&& b), (.or, fun a b => a ||| b),
   (.xor, fun a b => a ^^^ b), (.andn, fun a b => a &&& ~~~b), (.shl, fun a b => a <<< (b.toNat % 64)),
   (.shr, fun a b => a >>> (b.toNat % 64)), (.sar, fun a b => a.sshiftRight (b.toNat % 64)),
   (.slt, fun a b => if a.slt b then 1 else 0), (.sltu, fun a b => if a < b then 1 else 0),
   (.min, fun a b => if a.sle b then a else b), (.max, fun a b => if a.sle b then b else a),
   (.minu, fun a b => if a ≤ b then a else b), (.maxu, fun a b => if a ≤ b then b else a), (.mul, fun a b => a * b),
   (.mulh, fun a b => (a.signExtend 128 * b.signExtend 128).extractLsb' 64 64),
   (.mulhu, fun a b => (a.setWidth 128 * b.setWidth 128).extractLsb' 64 64)]

/-- Every two-source integer instruction but the divisions completes in every state with every operand: gD receives its result,
g0 stays 0, the next word follows, nothing else changes (R276, R304, R305). -/
def Obligations.IntegerResults : Prop :=
  ∀ p ∈ intRows, ∀ (d a b : Gpr) (s : State), ∃ t, exec (p.1 d a b) s = .next t ∧ s.resultIs t d (p.2 (s.g a) (s.g b))

/-- R306: DIV and REM divide signed numbers and DIVU and REMU unsigned ones, the quotient truncated towards zero, the remainder zero
or with the sign of a; the results for b = 0 and for the quotient that does not fit; the results and the words that R306 lists.
Each division completes in every state. -/
def Obligations.DivisionResults : Prop :=
  (∀ (d a b : Gpr) (s : State), ∃ q r qu ru : Word,
    (∃ t, exec (.div d a b) s = .next t ∧ s.resultIs t d q) ∧ (∃ t, exec (.rem d a b) s = .next t ∧ s.resultIs t d r)
    ∧ (∃ t, exec (.divu d a b) s = .next t ∧ s.resultIs t d qu) ∧ (∃ t, exec (.remu d a b) s = .next t ∧ s.resultIs t d ru)
    ∧ (s.g b = 0 → q = 0xFFFFFFFFFFFFFFFF ∧ qu = 0xFFFFFFFFFFFFFFFF ∧ r = s.g a ∧ ru = s.g a)
    ∧ (s.g b ≠ 0 → qu.toNat = (s.g a).toNat / (s.g b).toNat ∧ ru.toNat = (s.g a).toNat % (s.g b).toNat)
    ∧ ((s.g a).toInt = -2 ^ 63 → (s.g b).toInt = -1 → q = 0x8000000000000000 ∧ r = 0)
    ∧ (s.g b ≠ 0 → ¬((s.g a).toInt = -2 ^ 63 ∧ (s.g b).toInt = -1) →
        (s.g a).toInt = q.toInt * (s.g b).toInt + r.toInt ∧ r.toInt.natAbs < (s.g b).toInt.natAbs
        ∧ (r.toInt = 0 ∨ (r.toInt < 0 ↔ (s.g a).toInt < 0))))
  ∧ (∀ (s t : State), s.g 1 = -7 → s.g 2 = 2 → (exec (.div 3 1 2) s = .next t → t.g 3 = 0xFFFFFFFFFFFFFFFD)
      ∧ (exec (.rem 3 1 2) s = .next t → t.g 3 = -1))
  ∧ (∀ (s t : State), s.g 1 = 0xFFFFFFFFFFFFFFF9 → s.g 2 = 2 → (exec (.divu 3 1 2) s = .next t → t.g 3 = 0x7FFFFFFFFFFFFFFC)
      ∧ (exec (.remu 3 1 2) s = .next t → t.g 3 = 1))
  ∧ (∀ (s t : State), s.g 1 = -1 → s.g 2 = -1 → (exec (.mulh 3 1 2) s = .next t → t.g 3 = 0)
      ∧ (exec (.mulhu 3 1 2) s = .next t → t.g 3 = 0xFFFFFFFFFFFFFFFE))
  ∧ (∀ (s t : State), s.g 1 = 0x8000000000000000 → s.g 2 = 65 → exec (.sar 3 1 2) s = .next t → t.g 3 = 0xC000000000000000)
  ∧ (∀ (s t : State), s.g 1 = 8 → exec (.ctz 3 1) s = .next t → t.g 3 = 3)
  ∧ (∀ (s t : State), s.g 1 = 0x12348001 → exec (.sext 3 1 1) s = .next t → t.g 3 = 0xFFFFFFFFFFFF8001)
  ∧ encode (.add 3 1 2) = .scalar 0x04611000 ∧ decodeScalar 0x04611000 = .ok (.add 3 1 2)
  ∧ encode (.sext 5 6 1) = .scalar 0x04A6005C ∧ decodeScalar 0x04A6005C = .ok (.sext 5 6 1)

/-- The one-source instructions of R305. CLZ and CTZ give the number n of zero bits above or below the first one bit, 64 for 0;
POPC counts the one bits; SEXT and ZEXT extend the low 8, 16 or 32 bits. -/
def Obligations.BitCountsAndExtensions : Prop :=
  (∀ (d a : Gpr) (s : State), ∃ t n, exec (.clz d a) s = .next t ∧ s.resultIs t d (BitVec.ofNat 64 n) ∧ n ≤ 64
    ∧ (∀ k < n, (s.g a).getLsbD (63 - k) = false) ∧ (n < 64 → (s.g a).getLsbD (63 - n) = true))
  ∧ (∀ (d a : Gpr) (s : State), ∃ t n, exec (.ctz d a) s = .next t ∧ s.resultIs t d (BitVec.ofNat 64 n) ∧ n ≤ 64
    ∧ (∀ k < n, (s.g a).getLsbD k = false) ∧ (n < 64 → (s.g a).getLsbD n = true))
  ∧ (∀ (d a : Gpr) (s : State), ∃ t, exec (.popc d a) s = .next t
    ∧ s.resultIs t d (BitVec.ofNat 64 ((Finset.range 64).filter fun k => (s.g a).getLsbD k).card))
  ∧ (∀ (d a : Gpr) (s : State),
    (∃ t, exec (.sext d a 0) s = .next t ∧ s.resultIs t d (((s.g a).setWidth 8).signExtend 64))
    ∧ (∃ t, exec (.sext d a 1) s = .next t ∧ s.resultIs t d (((s.g a).setWidth 16).signExtend 64))
    ∧ (∃ t, exec (.sext d a 2) s = .next t ∧ s.resultIs t d (((s.g a).setWidth 32).signExtend 64))
    ∧ (∃ t, exec (.zext d a 0) s = .next t ∧ s.resultIs t d (((s.g a).setWidth 8).setWidth 64))
    ∧ (∃ t, exec (.zext d a 1) s = .next t ∧ s.resultIs t d (((s.g a).setWidth 16).setWidth 64))
    ∧ (∃ t, exec (.zext d a 2) s = .next t ∧ s.resultIs t d (((s.g a).setWidth 32).setWidth 64)))

/-- The immediate forms with what each gives (R307). -/
def Sys2Proof.Machine.immRows : List ((Gpr → Gpr → BitVec 16 → Instr) × (Word → BitVec 16 → Word)) :=
  [(.addi, fun a i => a + i.signExtend 64), (.andi, fun a i => a &&& i.setWidth 64), (.ori, fun a i => a ||| i.setWidth 64),
   (.xori, fun a i => a ^^^ i.setWidth 64), (.slti, fun a i => if a.slt (i.signExtend 64) then 1 else 0),
   (.sltui, fun a i => if a < i.signExtend 64 then 1 else 0)]

/-- Every immediate instruction completes in every state: R307's register operation on the extended immediate; LDI places the
halfword over zeros, LDI.K over the other 48 bits of gD (R308); ADDPC adds to the address of the instruction (R309). -/
def Obligations.ImmediateResults : Prop :=
  (∀ p ∈ immRows, ∀ (d a : Gpr) (i : BitVec 16) (s : State), ∃ t, exec (p.1 d a i) s = .next t ∧ s.resultIs t d (p.2 (s.g a) i))
  ∧ (∀ (d a : Gpr) (i : BitVec 6) (s : State),
    (∃ t, exec (.shli d a i) s = .next t ∧ s.resultIs t d (s.g a <<< i.toNat))
    ∧ (∃ t, exec (.shri d a i) s = .next t ∧ s.resultIs t d (s.g a >>> i.toNat))
    ∧ (∃ t, exec (.sari d a i) s = .next t ∧ s.resultIs t d ((s.g a).sshiftRight i.toNat)))
  ∧ (∀ (d : Gpr) (h : BitVec 2) (i : BitVec 16) (s : State),
    (∃ t, exec (.ldi d h i) s = .next t ∧ s.resultIs t d (i.setWidth 64 <<< (16 * h.toNat)))
    ∧ (∃ t, exec (.ldiK d h i) s = .next t ∧ s.resultIs t d
        (s.g d &&& ~~~(0xFFFF#64 <<< (16 * h.toNat)) ||| i.setWidth 64 <<< (16 * h.toNat))))
  ∧ (∀ (d : Gpr) (i : BitVec 16) (s : State), ∃ t, exec (.addpc d i) s = .next t ∧ s.resultIs t d (s.pc + i.signExtend 64))

/-- The branches with their conditions (R310). -/
def Sys2Proof.Machine.branchRows : List ((Gpr → Gpr → BitVec 16 → Instr) × (Word → Word → Bool)) :=
  [(.beq, fun a b => a == b), (.bne, fun a b => a != b), (.blt, fun a b => a.slt b), (.bge, fun a b => b.sle a),
   (.bltu, fun a b => a < b), (.bgeu, fun a b => b ≤ a)]

/-- R310: a branch whose condition holds goes to pc + 4 × the signed offset, any other to the next word; nothing else changes.
R311: J links and jumps; JR links and jumps to g(A) + the immediate, A read before D is written, and where that address is not a
multiple of 4 it takes Misaligned with that address as TVAL and the registers as they were. -/
def Obligations.BranchesAndJumps : Prop :=
  (∀ p ∈ branchRows, ∀ (a b : Gpr) (o : BitVec 16) (s : State), ∃ t, exec (p.1 a b o) s = .next t
    ∧ s.wentTo t (if p.2 (s.g a) (s.g b) then s.pc + 4 * o.signExtend 64 else s.pc + 4))
  ∧ (∀ (d : Gpr) (o : BitVec 21) (s : State), ∃ t, exec (.j d o) s = .next t ∧ t.g d = (if d = 0 then 0 else s.pc + 4)
    ∧ t.pc = s.pc + 4 * o.signExtend 64 ∧ s.keepsRegs t d ∧ s.onlyRegs t)
  ∧ (∀ (d a : Gpr) (i : BitVec 16) (s : State), (s.g a + i.signExtend 64) &&& 3 = 0 → ∃ t, exec (.jr d a i) s = .next t
    ∧ t.g d = (if d = 0 then 0 else s.pc + 4) ∧ t.pc = s.g a + i.signExtend 64 ∧ s.keepsRegs t d ∧ s.onlyRegs t)
  ∧ (∀ (d a : Gpr) (i : BitVec 16) (s : State), (s.g a + i.signExtend 64) &&& 3 ≠ 0 →
    exec (.jr d a i) s = .next (s.scalarTrap 0x04 (s.g a + i.signExtend 64)))

/-! ### Loads, stores, atomics -/

/-- A load of the device's memory that passes the checks of R314 completes: LD sign-extends and LDU zero-extends the bytes at its
place into gD (R313); no other register, no flag and no special register changes, and no byte of memory but the leaf entry whose
accessed bit is set (R174), a write that may clear links on its line (R359). Loads and stores go to g(A) plus the immediate, scaled by the
width. -/
def Obligations.LoadResults : Prop :=
  (∀ (s : State) (a : Gpr) (i : BitVec 10) (w : BitVec 2), s.addr a i w = s.g a + i.signExtend 64 <<< w.toNat)
  ∧ ∀ (d a : Gpr) (w : BitVec 2) (o : BitVec 1) (c : BitVec 3) (i : BitVec 10) (s s1 : State) (p : Spot), s.memOk →
    s.loadsAt (s.addr a i w) (2 ^ w.toNat) p s1 →
    (s.admits (.ld d a w o c i) → ∃ t, exec (.ld d a w o c i) s = .next t
      ∧ t.g d = (if d = 0 then 0 else wordOf (sextOf (t.peek p (2 ^ w.toNat)) (8 * 2 ^ w.toNat)))
      ∧ t.pc = s.pc + 4 ∧ s.keepsRegs t d ∧ s.cur.onlyRegsAndLinks t.cur ∧ s.othersKeep t ∧ t.store.owners = s.store.owners
      ∧ s.keepsBytes t 0 0 (s.leafOf (s.addr a i w)))
    ∧ (s.admits (.ldu d a w o c i) → ∃ t, exec (.ldu d a w o c i) s = .next t
      ∧ t.g d = (if d = 0 then 0 else BitVec.ofNat 64 (t.peek p (2 ^ w.toNat)))
      ∧ t.pc = s.pc + 4 ∧ s.keepsRegs t d ∧ s.cur.onlyRegsAndLinks t.cur ∧ s.othersKeep t ∧ t.store.owners = s.store.owners
      ∧ s.keepsBytes t 0 0 (s.leafOf (s.addr a i w)))

/-- A store to the device's memory that passes the checks of R314 completes: the n bytes at its place are the low bytes of gD
(R313); no general register, no flag and no special register changes, and no other byte but the leaf entry whose accessed and dirty
bits are set (R174). Links on the lines written may fall (R359). -/
def Obligations.StoreResults : Prop :=
  ∀ (d a : Gpr) (w : BitVec 2) (o : BitVec 1) (c : BitVec 3) (i : BitVec 10) (s s1 : State) (p : Spot), s.memOk →
    s.admits (.st d a w o c i) → s.storesAt (s.addr a i w) (2 ^ w.toNat) p s1 →
    ∃ t, exec (.st d a w o c i) s = .next t
      ∧ (∀ k < 2 ^ w.toNat, t.store.bytes.read (p.loc + k) = (s.g d).extractLsb' (8 * k) 8)
      ∧ s.keepsBytes t p.loc (2 ^ w.toNat) (s.leafOf (s.addr a i w))
      ∧ t.pc = s.pc + 4 ∧ (∀ r, t.g r = s.g r) ∧ s.cur.onlyRegsAndLinks t.cur ∧ s.othersKeep t

/-- What an AMO makes of the old value and g(B), on words of one width (R315). -/
def Sys2Proof.Machine.amoWord {n : Nat} (op : Nat) (old b : BitVec n) : BitVec n :=
  match op with
  | 0 => old + b | 1 => old &&& b | 2 => old ||| b | 3 => old ^^^ b
  | 4 => if old.slt b then old else b | 5 => if old.slt b then b else old
  | 6 => if old < b then old else b | 7 => if old < b then b else old
  | _ => b

/-- An atomic of the device's memory that passes the checks of R314 completes. AMO writes what its operation makes of the bytes found
and g(B), CAS writes g(B) only where the bytes found are those of g(D); both leave the sign-extended old value in gD (R315,
R316). `old` is what stands there once the leaf's bits are set (R174). -/
def Obligations.AtomicResults : Prop :=
  ∀ (d a b : Gpr) (o : BitVec 2) (c : BitVec 3) (s s1 : State) (p : Spot), s.memOk →
    (∀ q, s.admits (.amo d a b o c 0 q) → s.updatesAt (s.g a) 4 false p s1 → ∃ (t : State) (old : BitVec 32),
      exec (.amo d a b o c 0 q) s = .next t
      ∧ old.toNat = (s1.setAD s.cur.base.ptroot (s.g a) p true).peek p 4
      ∧ t.store.bytes.readN p.loc 4 = (amoWord q.toNat old ((s.g b).setWidth 32)).toNat
      ∧ t.g d = (if d = 0 then 0 else old.signExtend 64) ∧ t.pc = s.pc + 4 ∧ s.keepsRegs t d
      ∧ s.keepsBytes t p.loc 4 (s.leafOf (s.g a)) ∧ s.cur.onlyRegsAndLinks t.cur)
    ∧ (∀ q, s.admits (.amo d a b o c 1 q) → s.updatesAt (s.g a) 8 false p s1 → ∃ (t : State) (old : BitVec 64),
      exec (.amo d a b o c 1 q) s = .next t
      ∧ old.toNat = (s1.setAD s.cur.base.ptroot (s.g a) p true).peek p 8
      ∧ t.store.bytes.readN p.loc 8 = (amoWord q.toNat old (s.g b)).toNat
      ∧ t.g d = (if d = 0 then 0 else old) ∧ t.pc = s.pc + 4 ∧ s.keepsRegs t d
      ∧ s.keepsBytes t p.loc 8 (s.leafOf (s.g a)) ∧ s.cur.onlyRegsAndLinks t.cur)
    ∧ (s.admits (.cas d a b o c 0) → s.updatesAt (s.g a) 4 true p s1 → ∃ (t : State) (old : BitVec 32),
      exec (.cas d a b o c 0) s = .next t
      ∧ old.toNat = (s1.setAD s.cur.base.ptroot (s.g a) p true).peek p 4
      ∧ (old = (s.g d).setWidth 32 → t.store.bytes.readN p.loc 4 = (s.g b).toNat % 2 ^ 32)
      ∧ (old ≠ (s.g d).setWidth 32 → s.keepsBytes t 0 0 (s.leafOf (s.g a)))
      ∧ t.g d = (if d = 0 then 0 else old.signExtend 64) ∧ t.pc = s.pc + 4 ∧ s.keepsRegs t d
      ∧ s.keepsBytes t p.loc 4 (s.leafOf (s.g a)) ∧ s.cur.onlyRegsAndLinks t.cur)
    ∧ (s.admits (.cas d a b o c 1) → s.updatesAt (s.g a) 8 true p s1 → ∃ (t : State) (old : BitVec 64),
      exec (.cas d a b o c 1) s = .next t
      ∧ old.toNat = (s1.setAD s.cur.base.ptroot (s.g a) p true).peek p 8
      ∧ (old = s.g d → t.store.bytes.readN p.loc 8 = (s.g b).toNat)
      ∧ (old ≠ s.g d → s.keepsBytes t 0 0 (s.leafOf (s.g a)))
      ∧ t.g d = (if d = 0 then 0 else old) ∧ t.pc = s.pc + 4 ∧ s.keepsRegs t d
      ∧ s.keepsBytes t p.loc 8 (s.leafOf (s.g a)) ∧ s.cur.onlyRegsAndLinks t.cur)

/-- The checks of R314 from the second on, of an access of kind `k` to `n` bytes at `va` whose outcome is `run`, the first that fails giving the
trap: Misaligned; a failed translation or a refused permission; for an atomic host memory, Permission (R317); the key slot and the owner at the
memory (R56, R58, R169), Permission; a line that returns uncorrectable data (R27), or a closed host port (R48), Poison. -/
def Sys2Proof.Machine.State.checksInOrder (s : State) (k : Kind) (write atomic : Bool) (va : Word) (n : Nat) (run : Out) : Prop :=
  (va.toNat % n ≠ 0 → run = .next (s.scalarTrap 0x04 va))
  ∧ (va.toNat % n = 0 →
    (∀ e v s1, resolve s s.cur.cx k va = .trap e v s1 → run = .next (s1.scalarTrap e va))
    ∧ ∀ p s1, resolve s s.cur.cx k va = .ok p s1 →
      (atomic = true → spaceOf p.loc = .host → run = .next (s1.scalarTrap 0x06 va))
      ∧ (spaceOf p.loc = .reserved → run = .next (s1.scalarTrap 0x06 va))
      ∧ (spaceOf p.loc ≠ .host → s1.store.guard p.key p.loc write = .refused → run = .next (s1.scalarTrap 0x06 va))
      ∧ (spaceOf p.loc = .hbm → s1.store.guard p.key p.loc write ≠ .refused → (write = true ∨ s1.store.ownerOf p.loc ≠ freeOwner) →
        p.loc / 64 ∈ s1.store.poison ++ s1.store.soft → run = .next (s1.scalarTrap 0x0E va))
      ∧ (atomic = false → spaceOf p.loc = .host → write = true → s1.store.keyLoaded p.key = false → run = .next (s1.scalarTrap 0x06 va))
      ∧ (atomic = false → spaceOf p.loc = .host → (write = true → s1.store.keyLoaded p.key = true) → s1.port.hwbase.getLsbD 0 = false →
        run = .next (s1.scalarTrap 0x0E va)))

/-- The faults of scalar accesses in the order of R314, for each of LD, LDU, ST, AMO and CAS: Misaligned; a failed translation or a refused
permission; the key slot and the owner at the memory; for an atomic host memory too (R317); Poison. TVAL is the address.
R174: an access through a leaf that maps its place sets the leaf's accessed bit (0x40), and a store its dirty bit (0x80) too,
unless the store itself overwrites the leaf.
That an access refused at its place sets neither bit is a reading (log 27). -/
def Obligations.AccessFaults : Prop :=
  (∀ (d a b : Gpr) (s : State),
    (∀ (w : BitVec 2) (o : BitVec 1) (c : BitVec 3) (i : BitVec 10), let va := s.addr a i w; let n := 2 ^ w.toNat
      (s.admits (.ld d a w o c i) → s.checksInOrder .read false false va n (exec (.ld d a w o c i) s))
      ∧ (s.admits (.ldu d a w o c i) → s.checksInOrder .read false false va n (exec (.ldu d a w o c i) s))
      ∧ (s.admits (.st d a w o c i) → s.checksInOrder .write true false va n (exec (.st d a w o c i) s)))
    ∧ (∀ (o : BitVec 2) (c : BitVec 3) (w : BitVec 1) (q : BitVec 4), let va := s.g a; let n := amoBytes w
      (s.admits (.amo d a b o c w q) → s.checksInOrder .readWrite true true va n (exec (.amo d a b o c w q) s))
      ∧ (s.admits (.cas d a b o c w) → s.checksInOrder .readWrite true true va n (exec (.cas d a b o c w) s))))
  ∧ (∀ (d a : Gpr) (w : BitVec 2) (o : BitVec 1) (c : BitVec 3) (i : BitVec 10) (s s1 t : State) (p : Spot) (l e lev : Nat),
    let va := s.addr a i w
    s.memOk → walk s s.cur.base.ptroot va.toNat = .leaf l e lev → leafLoc e lev va.toNat = p.loc → p.win = 2 →
    bitsOf e 55 44 = s.pkgid.toNat →
    (s.admits (.ld d a w o c i) → s.loadsAt va (2 ^ w.toNat) p s1 → exec (.ld d a w o c i) s = .next t →
      t.store.bytes.readN l 8 = e ||| 0x40)
    ∧ (s.admits (.st d a w o c i) → s.storesAt va (2 ^ w.toNat) p s1 → (p.loc + 2 ^ w.toNat ≤ l ∨ l + 8 ≤ p.loc) →
      exec (.st d a w o c i) s = .next t → t.store.bytes.readN l 8 = e ||| 0xC0))

/-- Host memory (R48). A load that has no answer waits, with its request sent; one whose answer has come completes with the
host's value; a store is posted to the bus address HWBASE.BASE + (o − 0x800_0000_0000) and completes at once.
Which slots a host access looks at is a reading (log 27). -/
def Obligations.HostMemoryAccesses : Prop :=
  ∀ (d a : Gpr) (w : BitVec 2) (o : BitVec 1) (c : BitVec 3) (i : BitVec 10) (s s1 : State) (p : Spot),
    let va := s.addr a i w
    let mine : HostAnswer → Bool := fun x => x.who = s.cur.uid * 4 && x.loc = p.loc && x.n = 2 ^ w.toNat
    (∀ x v, s.admits (.ld d a w o c i) → s.loadsHost va (2 ^ w.toNat) p s1 → s1.port.answers.find? mine = some x → x.value = some v →
      ∃ t, exec (.ld d a w o c i) s = .next t ∧ t.g d = (if d = 0 then 0 else wordOf (sextOf v (8 * 2 ^ w.toNat)))
        ∧ t.pc = s.pc + 4 ∧ s.keepsRegs t d ∧ s.cur.onlyRegsAndLinks t.cur)
    ∧ (∀ x v, s.admits (.ldu d a w o c i) → s.loadsHost va (2 ^ w.toNat) p s1 → s1.port.answers.find? mine = some x → x.value = some v →
      ∃ t, exec (.ldu d a w o c i) s = .next t ∧ t.g d = (if d = 0 then 0 else BitVec.ofNat 64 v)
        ∧ t.pc = s.pc + 4 ∧ s.keepsRegs t d ∧ s.cur.onlyRegsAndLinks t.cur)
    ∧ (s.admits (.ld d a w o c i) → s.loadsHost va (2 ^ w.toNat) p s1 → s1.port.answers.find? mine = none →
      s1.port.requests = [] →
      ∃ t, exec (.ld d a w o c i) s = .next t ∧ t.cur.wait.stall = some .hostData ∧ t.pc = s.pc ∧ (∀ r, t.g r = s.g r)
        ∧ t.port.requests = [⟨s.cur.uid * 4, p.loc, s.port.bus p.loc, 2 ^ w.toNat, s.cycle⟩])
    ∧ (s.admits (.st d a w o c i) → va.toNat % 2 ^ w.toNat = 0 → resolve s s.cur.cx .write va = .ok p s1 → s1.check p (2 ^ w.toNat) true = none →
      spaceOf p.loc = .host → s1.writeLocked s.cur.cx va p = false →
      ∃ t, exec (.st d a w o c i) s = .next t ∧ t.port.sent = s1.port.sent ++ [.write (s.port.bus p.loc) (2 ^ w.toNat) ((s.g d).toNat % 2 ^ (8 * 2 ^ w.toNat))]
        ∧ t.pc = s.pc + 4 ∧ (∀ r, t.g r = s.g r) ∧ s.cur.onlyRegsAndLinks t.cur)

/-! ### Scalar floating point -/

/-- The two-source floating-point instructions of R321 that round, with the exact result that each rounds. -/
def Sys2Proof.Machine.fpRows : List ((Gpr → Gpr → Gpr → BitVec 3 → BitVec 1 → Instr) × (Nat → Fmt → Val → Val → Exact)) :=
  [(.fadd, fun rm _ x y => addV rm x y), (.fsub, fun rm _ x y => addV rm x y.neg), (.fmul, fun _ _ x y => mulV x y),
   (.fdiv, fun _ f x y => divV (precOf f) x y)]

/-- The scalar floating-point instructions that round complete whenever R290 lets them run: the operands are the low 32 or all 64
bits of their registers, the mode is the RM field's or FRM's (R245), gD is the result's encoding with zeros above it, its flags are
ORed into FLAGS, EIDX and everything else stand as before (R250, R320, R321, R324). -/
def Obligations.FloatResults : Prop :=
  ∀ (d a b c : Gpr) (r : BitVec 3) (p : BitVec 1) (s : State),
    let f := fpFmt p; let rm := s.cur.mode r
    (∀ q ∈ fpRows, s.admits (q.1 d a b r p) → ∃ t, exec (q.1 d a b r p) s = .next t
      ∧ let y := deliver f rm (q.2 rm f (s.fpVal f a) (s.fpVal f b)); (s.sflags y.2).resultIs t d (BitVec.ofNat 64 y.1))
    ∧ (s.admits (.fsqrt d a r p) → ∃ t, exec (.fsqrt d a r p) s = .next t
      ∧ let y := deliver f rm (sqrtV (precOf f) (s.fpVal f a)); (s.sflags y.2).resultIs t d (BitVec.ofNat 64 y.1))
    ∧ (s.admits (.fma d a b c r p) → ∃ t, exec (.fma d a b c r p) s = .next t
      ∧ let y := deliver f rm (fmaV rm (s.fpVal f a) (s.fpVal f b) (s.fpVal f c)); (s.sflags y.2).resultIs t d (BitVec.ofNat 64 y.1))

/-- FMIN and FMAX (R253): the other operand where one is a NaN, the canonical NaN where both are, else the lesser or greater, -0 below
+0; NV for a signalling NaN. FCMP (R322): 1 where its relation holds, else 0, and NV as the table says. Both complete. -/
def Obligations.FloatComparisons : Prop :=
  ∀ (d a b : Gpr) (p : BitVec 1) (s : State),
    let f := fpFmt p; let x := s.fpVal f a; let y := s.fpVal f b
    let signals := x = .nan true ∨ y = .nan true
    let ea := BitVec.ofNat 64 ((s.g a).toNat % 2 ^ f.width); let eb := BitVec.ofNat 64 ((s.g b).toNat % 2 ^ f.width)
    let below := cmpV x y < 0 ∨ (cmpV x y = 0 ∧ x.isNeg = true ∧ y.isNeg = false)
    (∀ i ∈ [(Instr.fmin d a b p, false), (Instr.fmax d a b p, true)], s.admits i.1 → ∃ t v fl, exec i.1 s = .next t
      ∧ (s.sflags fl).resultIs t d v ∧ (signals → fl = flagNV) ∧ (¬signals → fl = 0)
      ∧ (x.isNan = true → y.isNan = true → v = BitVec.ofNat 64 (nanEnc f)) ∧ (x.isNan = true → y.isNan = false → v = eb)
      ∧ (x.isNan = false → y.isNan = true → v = ea)
      ∧ (x.isNan = false → y.isNan = false → (below → v = if i.2 then eb else ea) ∧ (¬below → v = if i.2 then ea else eb)))
    ∧ (∀ c : BitVec 2, s.admits (.fcmp d a b p c) → ∃ t v fl, exec (.fcmp d a b p c) s = .next t ∧ (s.sflags fl).resultIs t d v
      ∧ (v = 1 ↔ (c = 0 ∧ x.isNan = false ∧ y.isNan = false ∧ cmpV x y = 0) ∨ (c = 1 ∧ x.isNan = false ∧ y.isNan = false ∧ cmpV x y < 0)
          ∨ (c = 2 ∧ x.isNan = false ∧ y.isNan = false ∧ cmpV x y ≤ 0) ∨ (c = 3 ∧ (x.isNan = true ∨ y.isNan = true)))
      ∧ (v = 0 ∨ v = 1) ∧ (fl = 0 ∨ fl = flagNV)
      ∧ (fl = flagNV ↔ signals ∨ ((c = 1 ∨ c = 2) ∧ (x.isNan = true ∨ y.isNan = true))))

/-- R323: FCLASS sets exactly one bit of gD, that of the operand's class, and raises no flag. The classes are read off the fields of
the encoding: sign, exponent, mantissa. -/
def Obligations.FclassOneBit : Prop :=
  ∀ (d a : Gpr) (p : BitVec 1) (s : State), s.admits (.fclass d a p) → ∃ t k, exec (.fclass d a p) s = .next t
    ∧ s.resultIs t d (BitVec.ofNat 64 (2 ^ k)) ∧ k < 10
    ∧ let f := fpFmt p; let e := (s.g a).toNat / 2 ^ manBits f % 2 ^ expBits f; let m := (s.g a).toNat % 2 ^ manBits f
      let neg := (s.g a).toNat.testBit (f.width - 1) = true; let top := 2 ^ expBits f - 1; let quiet := 2 ^ (manBits f - 1) ≤ m
      (k = 0 ↔ neg ∧ e = top ∧ m = 0) ∧ (k = 1 ↔ neg ∧ 0 < e ∧ e < top) ∧ (k = 2 ↔ neg ∧ e = 0 ∧ m ≠ 0) ∧ (k = 3 ↔ neg ∧ e = 0 ∧ m = 0)
      ∧ (k = 4 ↔ ¬neg ∧ e = 0 ∧ m = 0) ∧ (k = 5 ↔ ¬neg ∧ e = 0 ∧ m ≠ 0) ∧ (k = 6 ↔ ¬neg ∧ 0 < e ∧ e < top)
      ∧ (k = 7 ↔ ¬neg ∧ e = top ∧ m = 0) ∧ (k = 8 ↔ e = top ∧ m ≠ 0 ∧ ¬quiet) ∧ (k = 9 ↔ e = top ∧ quiet)

/-- FCVT (R254, R325): whenever R290 lets it run it completes; the source is read from the low bits of its register, an I32 result
copies its bit 31 upwards when U is 0, the flags are ORed into FLAGS. -/
def Obligations.FcvtResults : Prop :=
  ∀ (d a : Gpr) (u : BitVec 1) (r : BitVec 3) (s : State) (x y : Fmt) (src dst : BitVec 4),
    Fmt.ofCode src.toNat = some x → Fmt.ofCode dst.toNat = some y → s.admits (.fcvt d a u src dst r) →
    ∃ t, exec (.fcvt d a u src dst r) s = .next t
      ∧ let c := convert x y (s.cur.mode r) (u = 1) ((s.g a).toNat % 2 ^ x.width)
        (s.sflags c.2).resultIs t d (if y = .i32 ∧ u = 0 then (BitVec.ofNat 32 c.1).signExtend 64 else BitVec.ofNat 64 c.1)

/-- R244: the code e of E8M0 from 0 to 254 stands for 2^(e - 127) and 0xFF for a NaN; no code has a sign, is zero or is an infinity. -/
def Obligations.E8M0Values : Prop :=
  ∀ b < 256, (b ≤ 254 → valOf .e8m0 b = .fin false 1 ((b : Int) - 127)) ∧ (b = 255 → (valOf .e8m0 b).isNan = true)
    ∧ (valOf .e8m0 b).isNeg = false ∧ ∀ n m e, valOf .e8m0 b ≠ .inf n ∧ (valOf .e8m0 b = .fin n m e → m ≠ 0)

/-- A float format's number converts to its own encoding without a flag, in every mode (R243, R246, R254): decoding and rounding
agree on every encoding of every format. -/
def Obligations.OwnEncodingIsExact : Prop :=
  ∀ (f : Fmt) (rm b : Nat) (n : Bool) (m : Nat) (e : Int), f.isInt = false → f ≠ .e8m0 → rm < 4 → b < 2 ^ f.width →
    valOf f b = .fin n m e → deliver f rm (Val.fin n m e).exact = (b, 0)

/-- The magnitude of a dyadic, as a rational number. -/
def Sys2Proof.Machine.ratOf (m : Nat) (e : Int) : Rat := (m : Rat) * (2 : Rat) ^ e

/-- R246 in RTZ, for every format and every number: the rounded number has the sign of the exact one, is no greater in magnitude,
and no other number of the format lies between them; NX is raised exactly when they differ. -/
def Obligations.RoundsTowardsZero : Prop :=
  ∀ (f : Fmt) (neg : Bool) (m : Nat) (e : Int), f.isInt = false → f ≠ .e8m0 → m ≠ 0 →
    ∃ m' e', valOf f (roundTo f 1 neg m e false).1 = .fin neg m' e' ∧ ratOf m' e' ≤ ratOf m e
      ∧ (∀ b n2 m2 e2, b < 2 ^ f.width → valOf f b = .fin n2 m2 e2 → ratOf m2 e2 ≤ ratOf m e → ratOf m2 e2 ≤ ratOf m' e')
      ∧ ((roundTo f 1 neg m e false).2.getLsbD 0 = true ↔ ratOf m' e' ≠ ratOf m e)

/-! ### Traps -/

/-- R227: what a trap of each cause at each level and depth does. A management core's slot enters MTVEC at depth 0 or 1 and stops at
depth 2; elsewhere an extension word at user level enters EMUV at depth 0 where EMUV is not 0, and becomes Double Emulation at depth
1; any other trap of a user-level hart enters STVEC. A scalar trap has EPC and RPC at its instruction.
R153, R227: a trap in a handler of slot 7 takes no frame: the handler fails, its sender is told the cause, the slot is empty.
The frames of a management core stand in its slot (log 8). While a VGLNK holds a line of the frame (R361), the hart waits and takes nothing yet. -/
def Obligations.TrapEntry : Prop :=
  (∀ (s : State) (c : Nat) (tval epc rpc : Word) (vec : Bool), (s.cur.handler.isSome = false ∨ s.cur.id.slot ≠ 7) → s.frameHeld = true →
    ∀ tgt c', s.cur.trapRoute c = .enter tgt c' → s.take c tval epc rpc vec = s.stalled .home)
  ∧ (∀ (s : State) (c : Nat) (tval epc rpc : Word) (vec : Bool), s.memOk → s.cur.trap.depth ≤ 2 →
    (s.cur.handler.isSome = false ∨ s.cur.id.slot ≠ 7) → s.frameHeld = false →
    (s.cur.id.mgmt = true → s.cur.trap.depth < 2 → s.entered (s.take c tval epc rpc vec) .management c tval epc rpc vec)
    ∧ (s.cur.id.mgmt = true → s.cur.trap.depth = 2 → (s.take c tval epc rpc vec).cur.occ = .stopped
        ∧ (s.take c tval epc rpc vec).others = s.others)
    ∧ (s.cur.id.mgmt = false → s.cur.base.level = .user → c = 0x02 → s.cur.trap.depth = 0 → s.cur.trap.emuv ≠ 0 →
        s.entered (s.take c tval epc rpc vec) .user c tval epc rpc vec)
    ∧ (s.cur.id.mgmt = false → s.cur.base.level = .user → c = 0x02 → s.cur.trap.depth = 1 →
        s.entered (s.take c tval epc rpc vec) .supervisor 0x0D tval epc rpc vec)
    ∧ (s.cur.id.mgmt = false → s.cur.base.level = .user → s.cur.trap.depth < 2 →
        ¬(c = 0x02 ∧ s.cur.trap.depth = 0 ∧ s.cur.trap.emuv ≠ 0) → ¬(c = 0x02 ∧ s.cur.trap.depth = 1) →
        s.entered (s.take c tval epc rpc vec) .supervisor c tval epc rpc vec)
    ∧ (s.cur.id.mgmt = false → s.cur.base.level = .supervisor →
        s.take c tval epc rpc vec = s.hartFails ⟨2, c, s.cur.place.hix.toNat, epc, tval, some s.cur.id, 0, none⟩)
    ∧ s.scalarTrap c tval = s.take c tval s.pc s.pc false)
  ∧ (∀ (s : State) (c : Nat) (tval epc rpc : Word) (vec : Bool) (h : Handler), s.cur.id.slot = 7 → s.cur.handler = some h →
    (s.take c tval epc rpc vec).cur.occ = .empty ∧ (s.take c tval epc rpc vec).store = s.store
    ∧ (s.take c tval epc rpc vec).replies = s.replies ++ [⟨h.msg.uid, BitVec.ofNat 64 (c % 256 + h.msg.hnd.toNat * 256), true, h.msg.reply, s.cur.id.die⟩])

/-- A scalar trap and the TRET of its handler are inverse (R227, R229): general registers, level, scratch registers, TDEPTH and the
PC stand as at the trap; no breakpoint matches there (R268). -/
def Obligations.TrapThenReturn : Prop :=
  ∀ (s : State) (c c' : Nat) (tval : Word) (tgt : Level), s.memOk → s.cur.trap.depth < 2 → s.cur.handler = none →
    s.frameHeld = false → s.cur.trapRoute c = .enter tgt c' →
    ∃ u, exec .tret (s.scalarTrap c tval) = .next u ∧ u.cur.base = s.cur.base ∧ u.cur.trap.depth = s.cur.trap.depth
      ∧ u.cur.scratch tgt = s.cur.scratch tgt ∧ u.cur.trap.afterTret = true ∧ u.cur.fp = s.cur.fp ∧ u.cur.vec = s.cur.vec

/-- R229: TRET at depth 0 takes Illegal Encoding; with a frame f it completes: the level and the PC are f's, TDEPTH falls by 1, g31 is
exchanged with the scratch of the level it left; for a vector trap the strip is replayed from its list when RPLY is 1, and
abandoned, with an empty queue and the aborted status, when it is 0. Memory stands as before.
R407: TRAP takes cause 0x0A with the operand as TVAL and BRK takes Breakpoint with TVAL 0, at every level and depth. -/
def Obligations.TrapInstructions : Prop :=
  (∀ s : State,
    (s.cur.trap.depth = 0 → exec .tret s = .next (s.scalarTrap 0x01 (BitVec.ofNat 64 0x7C000001)))
    ∧ (s.cur.trap.depth ≠ 0 → ∃ t, exec .tret s = .next t ∧
        let f := s.frame s.cur (s.cur.trap.depth - 1)
        t.cur.base.level = Level.ofCode f.plv.toNat ∧ t.pc = f.rpc ∧ t.cur.trap.depth = s.cur.trap.depth - 1
        ∧ t.g 31 = s.cur.scratch s.cur.base.level ∧ t.cur.scratch s.cur.base.level = s.g 31 ∧ (∀ r, r ≠ 31 → t.g r = s.g r) ∧ t.store = s.store ∧ t.others = s.others
        ∧ t.cur.fp = s.cur.fp
        ∧ (f.vec = false → t.cur.vec = s.cur.vec)
        ∧ (∀ st, f.vec = true → s.cur.vec.strip = some st →
            (f.rply = true → t.cur.vec.queue.map (fun b => (b.addr, b.head, b.regs)) = st.replay.map fun r => (r.addr, r.start, r.regs))
            ∧ (f.rply = false → t.cur.vec.queue = [] ∧ t.cur.vec.status = some true
                ∧ ∃ st', t.cur.vec.strip = some st' ∧ st'.aborted = false ∧ st'.replay = []))))
  ∧ ((∀ (a : Gpr) (s : State), s.cur.handler = none → exec (.trap a) s = .next (s.scalarTrap 0x0A (s.g a)))
  ∧ (∀ s : State, s.cur.handler = none → exec .brk s = .next (s.scalarTrap 0x09 0)))

/-- The instructions of R228, with any operands. -/
def Sys2Proof.Machine.barredRows (d a b : Gpr) (x y : BitVec 1) (f q : BitVec 4) (n : BitVec 3) : List Instr :=
  [.vlease d a, .vsetl d a x y f, .vfetch a, .vsync d, .vcommit, .vrel, .mbegin x, .mend,
   .msg a b x y, .xput d a b, .xget d a b, .xsig a b, .qcopy d a f x q, .qput d a b x f,
   .barj d n, .bara d n, .barw a n, .barl n, .texit]

/-- R228: while TDEPTH is above 0, each instruction of its list takes Illegal Encoding, whatever its operands. -/
def Obligations.BarredWhileTrapped : Prop :=
  ∀ (d a b : Gpr) (x y : BitVec 1) (f q : BitVec 4) (n : BitVec 3) (s : State), s.cur.trap.depth ≠ 0 →
    ∀ i ∈ barredRows d a b x y f q n, exec i s = .next (s.scalarTrap 0x01 i.word)

/-! ### System registers -/

/-- The registers of one hart slot that software reads and writes whole, with the bits of each that are RW (R149, R223, R249, R265,
R267). -/
def Sys2Proof.Machine.plainRegs : List (BitVec 12 × Word) :=
  [(0x052, 0xFFFFFFFFFFFFFFF8), (0x065, 0xFFFFFFFFFFFFFFFC), (0x066, 0xFFFFFFFFFFFFFFFF), (0x070, 0x1F), (0x071, 3),
   (0x072, 0xFFFFFFFF), (0x073, 0xFFFFFFFF), (0x074, 0xFFFFFFFF), (0x075, 0xFFFFFFFF), (0x076, 0xFFFFFFFF),
   (0x080, 0xFFFFFFFFFFFFFFFF), (0x081, 0xFFFFFFFFFFFFFFFF), (0x082, 0xFFFFFFFFFFFFFFFF), (0x083, 0xFFFFFFFFFFFFFFFF),
   (0x084, 0xFFFFFFFFFFFFFFFF), (0x088, 0xFFFFFFFFFFFFFFFF), (0x089, 0xFFFFFFFFFFFFFFFF), (0x08A, 1),
   (0x400, 0xFFFFFFFFFFFFFFFD), (0x401, 0xFFFFFFFFFFFFFFFF), (0x820, 0xFFFFFFFFFFFFFFFC), (0x821, 0xFFFFFFFFFFFFFFFF)]

/-- The order of R278 for SRD, SWR, SRS and SRC: a number from 0xC00 on takes Illegal Encoding, one of a range above the hart's level
Privileged, assigned or not, an unassigned one Illegal Encoding.
SRD, SWR, SRS and SRC of an assigned register at a level that may access it complete (R406): gD receives the old value (g0
discards it); SWR writes g(A), SRS the old RW bits ORed with g(A), SRC the old RW bits without those of g(A), all under R5. A write of
GATTACH or GDETACH may wait (R85, R272, R361); no other waits. -/
def Obligations.SystemRegisterAccess : Prop :=
  (∀ (d a : Gpr) (n : BitVec 12) (s : State), ∀ i ∈ [Instr.srd d n, .swr a n, .srs d a n, .src d a n],
    (0xC00 ≤ n.toNat → exec i s = .next (s.scalarTrap 0x01 i.word))
    ∧ (0x400 ≤ n.toNat → n.toNat < 0xC00 → s.cur.base.level = .user → exec i s = .next (s.scalarTrap 0x03 i.word))
    ∧ (0x800 ≤ n.toNat → n.toNat < 0xC00 → s.cur.base.level = .supervisor → exec i s = .next (s.scalarTrap 0x03 i.word))
    ∧ (n.toNat < 0xC00 → n.toNat / 0x400 ≤ s.cur.base.level.code → s.regValue n.toNat = none → exec i s = .next (s.scalarTrap 0x01 i.word)))
  ∧ (∀ (d a : Gpr) (n : BitVec 12) (s s1 : State) (old : Word), n.toNat / 0x400 ≤ s.cur.base.level.code → s.readReg n.toNat = some (old, s1) →
    n.toNat < 0xC00 →
    s1.cur = s.cur ∧ s1.store = s.store
    ∧ (∃ t, exec (.srd d n) s = .next t ∧ s1.resultIs t d old)
    ∧ (∀ s2, s1.writeReg n.toNat (s.g a) = .ok () s2 → exec (.swr a n) s = .next s2.advance)
    ∧ (∀ s2, s1.writeReg n.toNat (old &&& rwMask n.toNat ||| s.g a) = .ok () s2 →
        ∃ t, exec (.srs d a n) s = .next t ∧ s2.resultIs t d old)
    ∧ (∀ s2, s1.writeReg n.toNat (old &&& ~~~(s.g a) &&& rwMask n.toNat) = .ok () s2 →
        ∃ t, exec (.src d a n) s = .next t ∧ s2.resultIs t d old)
    ∧ (n ≠ 0x480 → n ≠ 0x481 → ∀ v, ∃ s2, s1.writeReg n.toNat v = .ok () s2))

/-- A write of a plain register of the slot: SWR leaves g(A), SRS the old value with the bits of g(A), SRC without them, each in the RW
bits alone; every other plain register, the general registers but gD, and all of memory stand as before (R5, R406).
R5, R406: bits that a 1 clears. SWR and SRS of EVL and TOKUNB clear the bits that g(A) sets, but of EVL not those whose event came in the
same cycle (R156); SRC leaves them alone. -/
def Obligations.RegisterWrites : Prop :=
  (∀ p ∈ plainRegs, ∀ (d a : Gpr) (s : State) (old : Nat), p.1.toNat / 0x400 ≤ s.cur.base.level.code → s.regValue p.1.toNat = some old →
    ∀ i ∈ [(Instr.swr a p.1, (0 : Gpr), s.g a), (.srs d a p.1, d, BitVec.ofNat 64 old ||| s.g a), (.src d a p.1, d, BitVec.ofNat 64 old &&& ~~~(s.g a))],
      ∃ t, exec i.1 s = .next t ∧ t.regValue p.1.toNat = some (i.2.2 &&& p.2).toNat ∧ t.pc = s.pc + 4
        ∧ (∀ q ∈ plainRegs, q.1 ≠ p.1 → t.regValue q.1.toNat = s.regValue q.1.toNat)
        ∧ s.keepsRegs t i.2.1 ∧ (i.2.1 ≠ 0 → t.g i.2.1 = BitVec.ofNat 64 old) ∧ t.store = s.store ∧ t.others = s.others)
  ∧ (∀ (d a : Gpr) (s : State),
    (∃ t, exec (.swr a 0x050) s = .next t ∧ t.cur.ev.evl = s.cur.ev.evl &&& ~~~((s.g a).setWidth 6 &&& ~~~s.cur.ev.recent))
    ∧ (∃ t, exec (.srs d a 0x050) s = .next t ∧ t.cur.ev.evl = s.cur.ev.evl &&& ~~~((s.g a).setWidth 6 &&& ~~~s.cur.ev.recent))
    ∧ (∃ t, exec (.src d a 0x050) s = .next t ∧ t.cur.ev = s.cur.ev)
    ∧ (s.cur.base.level ≠ .user →
      (∃ t, exec (.swr a 0x485) s = .next t ∧ (t.die s.cur.id.die).tokunb = (s.die s.cur.id.die).tokunb &&& ~~~((s.g a).setWidth 32))
      ∧ (∃ t, exec (.srs d a 0x485) s = .next t ∧ (t.die s.cur.id.die).tokunb = (s.die s.cur.id.die).tokunb &&& ~~~((s.g a).setWidth 32))
      ∧ (∃ t, exec (.src d a 0x485) s = .next t ∧ (t.die s.cur.id.die).tokunb = (s.die s.cur.id.die).tokunb)))

/-! ### Caches and translations -/

/-- CFLUSH (R408): with scope 2 to 5 it completes; each L1 in its reach has dropped the line of g(A), every other L1 and everything else
stands as before: every general register, every other hart, all of memory, but for what caches hold and free values used; an address in the
scratchpad window takes Permission, and a page that is not present completes it without a service.
TLBI (R409): above user level it completes when g(B) is a root aligned to 128 KiB (mode .ALL takes any), once no hart has a buffered store or a
watched element that has used a dropped translation: no cached translation that it names is left, every other one is kept, and no register and
no byte changes, unless it covers a page of the buffer of a trace session, which stops (R273). While another hart has such an access, it waits.
A misaligned root takes Illegal Encoding.
What a cache holds is free, and the hart's own buffered stores are translated anew (log 7); a root of 2^56 or more is misaligned (a reading,
log 27). -/
def Obligations.CacheMaintenance : Prop :=
  (∀ (a : Gpr) (c : BitVec 3) (s s1 : State), s.admits (.cflush a c) →
    (inWindow (s.g a) = true → exec (.cflush a c) s = .next (s.scalarTrap 0x06 (s.g a)))
    ∧ (∀ p, inWindow (s.g a) = false → resolve s s.cur.cx .read (s.g a) = .ok p s1 → ∃ t, exec (.cflush a c) s = .next t
        ∧ s.cur.onlyRegs t.cur ∧ (∀ r, t.g r = s.g r) ∧ t.others = s.others ∧ t.pc = s.pc + 4 ∧ t.store.bytes = s.store.bytes
        ∧ t = { s with cur := t.cur, cores := t.cores, store := { s.store with tlb := t.store.tlb, stale := t.store.stale }, free := t.free }
        ∧ (∀ k ∈ t.cores, flushReaches c.toNat s.cur.id k.id = true → ∀ e ∈ k.l1, e.1 / 64 ≠ p.loc / 64)
        ∧ t.cores.length = s.cores.length
        ∧ (∀ j : Nat, (t.cores[j]?).map Core.id = (s.cores[j]?).map Core.id
            ∧ ∀ k u : Core, s.cores[j]? = some k → t.cores[j]? = some u → (flushReaches c.toNat s.cur.id k.id = false → u = k)
              ∧ (∀ e ∈ k.l1, e.1 / 64 ≠ p.loc / 64 → e ∈ u.l1) ∧ u = { k with l1 := u.l1 }))
    ∧ (∀ e v, inWindow (s.g a) = false → resolve s s.cur.cx .read (s.g a) = .trap e v s1 →
        exec (.cflush a c) s = .next (s1.scalarTrap e (s.g a)))
    ∧ (∀ q, inWindow (s.g a) = false → resolve s s.cur.cx .read (s.g a) = .stall q s1 → ∃ t, exec (.cflush a c) s = .next t
        ∧ s.wentTo t (s.pc + 4)))
  ∧ (∀ (a b : Gpr) (m : BitVec 2) (s : State), s.admits (.tlbi a b m) →
    (m ≠ 2 → (s.g b).toNat % 0x20000 ≠ 0 → exec (.tlbi a b m) s = .next (s.scalarTrap 0x01 (Instr.tlbi a b m).word))
    ∧ (m = 2 ∨ ((s.g b).toNat % 0x20000 = 0 ∧ (s.g b).toNat < 2 ^ 56) →
      let covers := tlbiCoversPage s m.toNat (BitVec.ofNat 56 (s.g b).toNat) (s.g a).toNat
      let drops (t : State) : Prop := ∀ e, e ∈ t.store.tlb ↔ e ∈ s.store.tlb
        ∧ ¬((m = 0 ∧ e.ptroot.toNat = (s.g b).toNat ∧ e.page ≤ (s.g a).toNat ∧ (s.g a).toNat < e.page + e.size)
          ∨ (m = 1 ∧ e.ptroot.toNat = (s.g b).toNat) ∨ m = 2)
      ((∀ x ∈ s.harts, x.usesCovered false covers = false) → ∃ t, exec (.tlbi a b m) s = .next t ∧ t.pc = s.pc + 4 ∧
        ((∀ die n, (s.trace die n).en = true → ∀ k < 2 ^ (s.trace die n).log2.toNat,
          covers (s.trace die n).ptroot ((s.trace die n).at_ (k * 65536)).toNat = false) →
        drops t ∧ t.store.bytes = s.store.bytes ∧ t.others = s.others ∧ s.cur.onlyRegs t.cur ∧ ∀ r, t.g r = s.g r))
      ∧ (∀ x ∈ s.others, x.usesCovered false covers = true → ∃ t, exec (.tlbi a b m) s = .next t ∧ t.cur.wait.stall = some .home ∧ t.pc = s.pc
        ∧ drops t ∧ t.store.bytes = s.store.bytes ∧ t.others = s.others ∧ ∀ r, t.g r = s.g r)))
/-! ### Integer vectors -/

/-- The integer instructions of R330, each with its result as an exact integer of the width, the patterns A, B and E. -/
def Sys2Proof.Machine.intVecRows : List ((VFields → Instr) × (Nat → Nat → Nat → Nat → Int)) :=
  [(.vadd, fun _ a b _ => a + b), (.vsub, fun _ a b _ => a - b), (.vmul, fun _ a b _ => a * b),
   (.vmulh, fun w a b _ => sextOf a w * sextOf b w / 2 ^ w), (.vmulhu, fun w a b _ => (a * b : Nat) / 2 ^ w),
   (.vmad, fun _ a b c => a * b + c), (.vmin, fun w a b _ => min (sextOf a w) (sextOf b w)),
   (.vmax, fun w a b _ => max (sextOf a w) (sextOf b w)), (.vminu, fun _ a b _ => min (a : Int) b), (.vmaxu, fun _ a b _ => max (a : Int) b),
   (.vand, fun _ a b _ => (a &&& b : Nat)), (.vor, fun _ a b _ => (a ||| b : Nat)), (.vxor, fun _ a b _ => (a ^^^ b : Nat)),
   (.vandn, fun w a b _ => (a &&& (2 ^ w - 1 - b) : Nat)), (.vshl, fun w a b _ => a * 2 ^ (b % w)), (.vshr, fun w a b _ => (a / 2 ^ (b % w) : Nat)),
   (.vsar, fun w a b _ => sextOf a w / 2 ^ (b % w)), (.vadds, fun w a b _ => satTo (sextOf a w + sextOf b w) w true),
   (.vsubs, fun w a b _ => satTo (sextOf a w - sextOf b w) w true), (.vaddsu, fun w a b _ => satTo (a + b) w false),
   (.vsubsu, fun w a b _ => satTo (a - b) w false), (.vabs, fun w a _ _ => |sextOf a w|)]

/-- Every integer vector instruction of R330 completes in an open strip: vD receives the low w bits of the exact result in its active
elements, masked, zeroed and padded as R293's put says, and raises no flag; no other register changes. -/
def Obligations.VectorIntegerResults : Prop :=
  ∀ p ∈ intVecRows, ∀ (f : VFields) (s : State), s.vectorOk (p.1 f) →
    let w := (fmtOf f).width; let g := s.cur.range w
    ∃ t, exec (p.1 f) s = .next t ∧ s.noFlags t
      ∧ s.resultV t f w w (fun e => wrapTo (p.2 w (g.el (s.v f.a) w e) (s.operandB g f w e) (g.el (s.v f.e) w e)) w)

/-- R263: integer arithmetic wraps modulo 2^w; the saturating instructions clamp the exact sum or difference of signed or unsigned elements to the
range of R241, and neither kind raises a flag or records an index. -/
def Obligations.SaturationRule : Prop :=
  ∀ (f : VFields) (s : State) (e : Nat), let w := (fmtOf f).width; let g := s.cur.range w
    let a := g.el (s.v f.a) w e; let b := s.operandB g f w e
    s.act g f e = true →
    (s.vectorOk (.vadd f) → ∃ t, exec (.vadd f) s = .next t ∧ s.noFlags t ∧ elBits (t.v f.d) w e = (a + b) % 2 ^ w)
    ∧ (s.vectorOk (.vmul f) → ∃ t, exec (.vmul f) s = .next t ∧ s.noFlags t ∧ elBits (t.v f.d) w e = a * b % 2 ^ w)
    ∧ (s.vectorOk (.vsub f) → ∃ t, exec (.vsub f) s = .next t ∧ s.noFlags t ∧ (elBits (t.v f.d) w e : Int) = ((a : Int) - b) % 2 ^ w)
    ∧ (s.vectorOk (.vmad f) → ∃ t, exec (.vmad f) s = .next t ∧ s.noFlags t
        ∧ elBits (t.v f.d) w e = (a * b + g.el (s.v f.e) w e) % 2 ^ w)
    ∧ (s.vectorOk (.vadds f) → ∃ t, exec (.vadds f) s = .next t ∧ s.noFlags t
        ∧ sextOf (elBits (t.v f.d) w e) w = max (-2 ^ (w - 1)) (min (2 ^ (w - 1) - 1) (sextOf a w + sextOf b w)))
    ∧ (s.vectorOk (.vsubs f) → ∃ t, exec (.vsubs f) s = .next t ∧ s.noFlags t
        ∧ sextOf (elBits (t.v f.d) w e) w = max (-2 ^ (w - 1)) (min (2 ^ (w - 1) - 1) (sextOf a w - sextOf b w)))
    ∧ (s.vectorOk (.vaddsu f) → ∃ t, exec (.vaddsu f) s = .next t ∧ s.noFlags t ∧ elBits (t.v f.d) w e = min (2 ^ w - 1) (a + b))
    ∧ (s.vectorOk (.vsubsu f) → ∃ t, exec (.vsubsu f) s = .next t ∧ s.noFlags t ∧ elBits (t.v f.d) w e = a - b)

/-- Compares and mask instructions complete (R339-R342): VCMP by its condition, MAND to MANDN bit by bit, MSBF up to the first set bit,
VCONF.FIRST and .LAST by equal active elements, .COUNT as I32; MPOP and MFIRST to their result slot.
VRED completes (R349): its result slot holds the 64-bit combination of the identity, g(B) where FN[4] is 1, and every active element
extended; no register changes and no flag is raised.
That MPOP, MFIRST and VRED want ZM 0 is a reading (log 28). -/
def Obligations.MaskAndReductionResults : Prop :=
  (∀ (f : VFields) (s : State), let w := (fmtOf f).width; let g := s.cur.range w; let q : Range := ⟨s.cur.vec.vl, s.cur.vec.vbl⟩
    let a : Nat → Nat := fun e => g.el (s.v f.a) w e
    let set : Nat → Prop := fun e => s.act q f e = true ∧ s.mbit f.a.toNat e = true
    (s.vectorOk (.vcmp f) → ∃ t, exec (.vcmp f) s = .next t ∧ s.noFlags t
      ∧ s.resultM t f g fun e => let b := s.operandB g f w e
        match f.rm with
        | 0 => a e == b | 1 => a e != b | 2 => sextOf (a e) w < sextOf b w | 3 => sextOf (a e) w ≤ sextOf b w
        | 4 => a e < b | 5 => a e ≤ b | 6 => sextOf b w < sextOf (a e) w | _ => b < a e)
    ∧ (s.vectorOk (.mand f) → ∃ t, exec (.mand f) s = .next t ∧ s.noFlags t
        ∧ s.resultM t f q fun e => s.mbit f.a.toNat e && s.mbit f.b.toNat e)
    ∧ (s.vectorOk (.mor f) → ∃ t, exec (.mor f) s = .next t ∧ s.noFlags t
        ∧ s.resultM t f q fun e => s.mbit f.a.toNat e || s.mbit f.b.toNat e)
    ∧ (s.vectorOk (.mxor f) → ∃ t, exec (.mxor f) s = .next t ∧ s.noFlags t
        ∧ s.resultM t f q fun e => s.mbit f.a.toNat e ^^ s.mbit f.b.toNat e)
    ∧ (s.vectorOk (.mandn f) → ∃ t, exec (.mandn f) s = .next t ∧ s.noFlags t
        ∧ s.resultM t f q fun e => s.mbit f.a.toNat e && !s.mbit f.b.toNat e)
    ∧ (s.vectorOk (.mpop f) → ∃ t n, exec (.mpop f) s = .next t ∧ s.noFlags t ∧ s.resultY t f n
        ∧ n = ((Finset.range s.cur.vec.vl).filter fun e => s.act q f e && s.mbit f.a.toNat e).card)
    ∧ (s.vectorOk (.mfirst f) → ∃ t n, exec (.mfirst f) s = .next t ∧ s.noFlags t ∧ s.resultY t f n
        ∧ ((set n ∧ ∀ e < n, ¬set e) ∨ (n = 0xFFFFFFFFFFFFFFFF ∧ ∀ e, ¬set e)))
    ∧ (s.vectorOk (.msbf f) → ∃ t n, exec (.msbf f) s = .next t ∧ s.noFlags t ∧ s.resultM t f q (fun e => e < n)
        ∧ ((set n ∧ ∀ e < n, ¬set e) ∨ (n = s.cur.vec.vl ∧ ∀ e, ¬set e)))
    ∧ (s.vectorOk (.vconf f) → bitsOf f.fnN 1 0 = 0 → ∃ t, exec (.vconf f) s = .next t ∧ s.noFlags t
        ∧ s.resultM t f g fun e => decide (∀ j < e, s.act g f j = true → a j ≠ a e))
    ∧ (s.vectorOk (.vconf f) → bitsOf f.fnN 1 0 = 1 → ∃ t, exec (.vconf f) s = .next t ∧ s.noFlags t
        ∧ s.resultM t f g fun e => decide (∀ j < g.vl, e < j → s.act g f j = true → a j ≠ a e))
    ∧ (s.vectorOk (.vconf f) → bitsOf f.fnN 1 0 = 2 → let c := s.cur.range (max w 32)
        ∃ t, exec (.vconf f) s = .next t ∧ s.noFlags t ∧ s.resultV t f (max w 32) 32
          fun e => ((Finset.range (e + 1)).filter fun j => s.act c f j && c.el (s.v f.a) w j == c.el (s.v f.a) w e).card))
  ∧ (∀ (f : VFields) (s : State), let w := (fmtOf f).width; let g := s.cur.range w
    let ext : Nat → BitVec 64 := fun x => if f.fn.getLsbD 3 || f.rm == 6 || f.rm == 7 then BitVec.ofNat 64 x else BitVec.ofInt 64 (sextOf x w)
    let xs : List (BitVec 64) := (if f.fn.getLsbD 4 then [s.snap f.b] else [])
      ++ ((List.range g.vl).filter fun e => s.act g f e).map fun e => ext (g.el (s.v f.a) w e)
    s.vectorOk (.vred f) → ∃ t r, exec (.vred f) s = .next t ∧ s.noFlags t ∧ s.resultY t f (BitVec.toNat r)
      ∧ r = (match f.rm with
        | 0 => xs.foldl (· + ·) 0 | 1 => xs.foldl (· &&& ·) (-1) | 2 => xs.foldl (· ||| ·) 0 | 3 => xs.foldl (· ^^^ ·) 0
        | 4 => xs.foldl (fun x y => if x.sle y then x else y) (BitVec.ofInt 64 (2 ^ 63 - 1))
        | 5 => xs.foldl (fun x y => if x.sle y then y else x) (BitVec.ofInt 64 (-2 ^ 63))
        | 6 => xs.foldl (fun x y => if x ≤ y then x else y) (-1) | _ => xs.foldl (fun x y => if x ≤ y then y else x) 0))

/-- Moves and permutes complete (R343-R346): VMOV, VBCAST, VIDX, VSWZ, VSHUF, VSLIDEUP, VSLIDEDN under put.
The permutes by a selector and the single elements complete (R343, R347, R348): VMERGE chooses by m[MK] for every element below
VL, VCOMP packs the selected elements and counts them, VEXPD spreads them, VINS writes one element, VEXT reads one. -/
def Obligations.PermuteResults : Prop :=
  (∀ (f : VFields) (s : State), let w := (fmtOf f).width; let g := s.cur.range w
    let a : Nat → Nat := fun e => g.el (s.v f.a) w e
    let n := if f.bk = 1 then (s.snap f.b).toNat else f.imm.toNat
    (s.vectorOk (.vmov f) → ∃ t, exec (.vmov f) s = .next t ∧ s.noFlags t ∧ s.resultV t f w w a)
    ∧ (s.vectorOk (.vbcast f) → ∃ t, exec (.vbcast f) s = .next t ∧ s.noFlags t ∧ s.resultV t f w w (fun e => s.operandB g f w e))
    ∧ (s.vectorOk (.vidx f) → ∃ t, exec (.vidx f) s = .next t ∧ s.noFlags t ∧ s.resultV t f w w (fun e => wrapTo ((e : Int) + f.imm.toInt) w))
    ∧ (s.vectorOk (.vswz f) → ∃ t, exec (.vswz f) s = .next t ∧ s.noFlags t ∧ s.resultV t f w w fun e =>
        let k := 128 / w; let x := f.imm.toNat % 32
        let i := k * (e / k) + if f.fn.getLsbD 0 then x else (e % k) ^^^ x
        if i < g.vl then a i else 0)
    ∧ (s.vectorOk (.vshuf f) → let wi := if f.bk = 0 then w else if f.bk = 1 then 16 else 32; let c := s.cur.range (max w wi)
        ∃ t, exec (.vshuf f) s = .next t ∧ s.noFlags t ∧ s.resultV t f (max w wi) w fun e =>
          let i := c.el (s.v f.b) wi e; if i < c.vl then c.el (s.v f.a) w i else 0)
    ∧ (s.vectorOk (.vslideup f) → ∃ t, exec (.vslideup f) s = .next t ∧ s.noFlags t
        ∧ s.resultV t f w w (fun e => if n ≤ e then a (e - n) else 0))
    ∧ (s.vectorOk (.vslidedn f) → ∃ t, exec (.vslidedn f) s = .next t ∧ s.noFlags t
        ∧ s.resultV t f w w (fun e => if e + n < g.vl then a (e + n) else 0)))
  ∧ (∀ (f : VFields) (s : State), let w := (fmtOf f).width; let g := s.cur.range w
    let a : Nat → Nat := fun e => g.el (s.v f.a) w e
    let old : Nat → Nat := fun e => elBits (s.v f.d) w e
    let n := if f.bk = 1 then (s.snap f.b).toNat else f.imm.toNat
    let sel : Nat → Nat := fun e => ((Finset.range e).filter fun j => j < g.vl && s.mbit f.msk.toNat j).card
    let rest : State → Prop := fun t => (∀ r, r ≠ f.d → t.v r = s.v r) ∧ t.cur.vec.regs.m = s.cur.vec.regs.m ∧ s.vecFrame t ∧ s.noFlags t
    (s.vectorOk (.vmerge f) → ∃ t, exec (.vmerge f) s = .next t ∧ rest t ∧ t.cur.vec.yBlock = s.cur.vec.yBlock
      ∧ ∀ e, elBits (t.v f.d) w e = if e < g.vl then (if s.mbit f.msk.toNat e then a e else s.operandB g f w e) % 2 ^ w
          else if e < g.vbl then 0 else old e)
    ∧ (s.vectorOk (.vcomp f) → ∃ t, exec (.vcomp f) s = .next t ∧ rest t
        ∧ (∀ e < g.vl, s.mbit f.msk.toNat e = true → elBits (t.v f.d) w (sel e) = a e % 2 ^ w)
        ∧ (∀ e, sel g.vl ≤ e → elBits (t.v f.d) w e = if e < g.vbl then 0 else old e)
        ∧ (f.fn.getLsbD 0 = false → t.cur.vec.yBlock = s.cur.vec.yBlock)
        ∧ (f.fn.getLsbD 0 = true → t.cur.vec.yBlock[f.qs.toNat % 8]'(Nat.mod_lt _ (by decide)) = BitVec.ofNat 64 (sel g.vl)))
    ∧ (s.vectorOk (.vexpd f) → ∃ t, exec (.vexpd f) s = .next t ∧ rest t ∧ t.cur.vec.yBlock = s.cur.vec.yBlock
        ∧ ∀ e, elBits (t.v f.d) w e = if e < g.vl then (if s.mbit f.msk.toNat e then a (sel e) % 2 ^ w else if f.zm then 0 else old e)
          else if e < g.vbl then 0 else old e)
    ∧ (s.vectorOk (.vins f) → ∃ t, exec (.vins f) s = .next t ∧ rest t ∧ t.cur.vec.yBlock = s.cur.vec.yBlock
        ∧ ∀ e, elBits (t.v f.d) w e = if e = n ∧ s.act g f e = true then (s.snap f.a).toNat % 2 ^ w else old e)
    ∧ (s.vectorOk (.vext f) → ∃ t, exec (.vext f) s = .next t ∧ s.noFlags t
        ∧ s.resultY t f (let x := if n < g.vl then a n else 0; if f.fn.getLsbD 2 then wrapTo (sextOf x w) 64 else x)))

/-- VBAR, VNOP and VSTOP complete (R159, R162) and change no register; VSTOP marks the end of its block, which then leaves the queue.
R327: an instruction whose widest format allows fewer elements than VL runs on that many, with no pad; any other on VL and VBL. -/
def Obligations.ControlWords : Prop :=
  (∀ (f : VFields) (s : State),
    (s.vectorOk (.vbar f) → ∃ t, exec (.vbar f) s = .next t ∧ s.vecFrame t ∧ t.cur.vec.regs = s.cur.vec.regs ∧ s.noFlags t)
    ∧ (s.vectorOk (.vnop f) → ∃ t, exec (.vnop f) s = .next t ∧ s.vecFrame t ∧ t.cur.vec.regs = s.cur.vec.regs ∧ s.noFlags t)
    ∧ (s.vectorOk (.vstop f) → ∃ t, exec (.vstop f) s = .next t ∧ s.vecFrame t ∧ t.cur.vec.regs = s.cur.vec.regs ∧ s.noFlags t
        ∧ ∃ b bs, t.cur.vec.queue = b :: bs ∧ b.ended = true))
  ∧ (∀ (x : Hart) (w : Nat), (x.vec.vl ≤ x.vlmax w → x.range w = ⟨x.vec.vl, x.vec.vbl⟩)
    ∧ (x.vlmax w < x.vec.vl → x.range w = ⟨x.vlmax w, x.vlmax w⟩))

/-- R291: a vector word that breaks a field rule, or needs a feature the hart lacks, is a vector trap: Illegal Encoding is pending with the word
as TVAL, and no register that the strip had at its opening has changed. A vector word without an open strip faults; no step runs one,
unless its agenda itself names such a word as an event, which no hardware does.
R353: a vector memory instruction whose stream is inactive, has another element size, or is LANE where only VIRT is taken, is a
vector trap with cause 0x01. -/
def Obligations.IllegalVectorWords : Prop :=
  (∀ (i : Instr) (w : Nat) (s : State), encode i = .vector w → s.vectorReady = false → exec i s = .fault .noStrip)
  ∧ (∀ s : State, step s = .fault .noStrip → ∃ i w rest, s.agenda = .event i :: rest ∧ encode i = .vector w ∧ s.vectorReady = false)
  ∧ (∀ (i : Instr) (w : Nat) (s : State), encode i = .vector w → s.vectorReady = true → (i.legal = false ∨ s.cur.hasFeatures i = false) →
    exec i s = vectorTrap s s 0x01 (BitVec.ofNat 64 w)
    ∧ (∀ st, s.cur.vec.strip = some st → st.aborted = false → (s.cur.vec.session = none ∨ st.ext = []) →
      ∃ t v, exec i s = .next t ∧ t.cur.trap.vtrap = some v ∧ v.cause = 0x01 ∧ v.tval = BitVec.ofNat 64 w ∧ t.cur.vec.regs = st.opening
        ∧ t.cur.base = s.cur.base ∧ t.store.bytes = s.store.bytes))
  ∧ (∀ (f : VFields) (s : State),
    (∀ i ∈ [(Instr.vld f, false), (.vst f, false), (.vpref f, false), (.vgath f, true), (.vscat f, true)], s.vectorOk i.1 →
      (s.vmem f i.2 false).streamOk = false → exec i.1 s = vectorTrap s s 0x01 i.1.word)
    ∧ (∀ i ∈ [Instr.vglnk f, .vscnd f, .vamo f], s.vectorOk i → (s.vmem f true true).streamOk = false →
        exec i s = vectorTrap s s 0x01 i.word)
    ∧ (s.vectorOk (.vwaitv f) → s.cur.wait.deadline = none → (s.vmem f (bitsOf f.fnN 2 2 = 1) true).streamOk = false →
        exec (.vwaitv f) s = vectorTrap s s 0x01 (Instr.vwaitv f).word)
    ∧ (∀ (indexed virt : Bool), ((s.cur.stream f.qs.toNat).active = false ∨ eszWidth (s.cur.stream f.qs.toNat).esz.toNat ≠ (fmtOf f).width) →
        (s.vmem f indexed virt).streamOk = false)
    ∧ (∀ indexed : Bool, (s.cur.stream f.qs.toNat).space = 1 → (s.vmem f indexed true).streamOk = false))
/-! ### Floating-point vectors -/

/-- The element-wise floating-point instructions of R331 to R335: the encoding and the flags that each gives, from the mode, the format
and the encodings A, B and E; `imm` is the immediate. -/
def Sys2Proof.Machine.floatVecRows : List ((VFields → Instr) × (BitVec 16 → Nat → Nat → Fmt → Nat → Nat → Nat → Nat × FlagSet)) :=
  [(.vfadd, fun _ _ rm x a b _ => deliver x rm (addV rm (valOf x a) (valOf x b))),
   (.vfsub, fun _ _ rm x a b _ => deliver x rm (addV rm (valOf x a) (valOf x b).neg)),
   (.vfmul, fun _ _ rm x a b _ => deliver x rm (mulV (valOf x a) (valOf x b))),
   (.vfdiv, fun _ _ rm x a b _ => deliver x rm (divV (precOf x) (valOf x a) (valOf x b))),
   (.vfsqrt, fun _ _ rm x a _ _ => deliver x rm (sqrtV (precOf x) (valOf x a))),
   (.vfma, fun _ _ rm x a b c => deliver x rm (fmaV rm (valOf x a) (valOf x b) (valOf x c))),
   (.vfmin, fun _ _ _ x a b _ => minMaxEnc x false a b), (.vfmax, fun _ _ _ x a b _ => minMaxEnc x true a b),
   (.vfsgn, fun _ op _ x a b _ =>
     let sgn := if op % 4 = 0 then b.testBit (x.width - 1) else if op % 4 = 1 then !b.testBit (x.width - 1)
       else a.testBit (x.width - 1) ^^ b.testBit (x.width - 1)
     (a % 2 ^ (x.width - 1) + sgn.toNat * 2 ^ (x.width - 1), 0)),
   (.vfrcp, fun _ _ rm x a _ _ => deliver x rm (divV (precOf x) (.fin false 1 0) (valOf x a))),
   (.vfrsq, fun _ _ _ x a _ _ => deliver x 0 (rsqrtV (precOf x) (valOf x a))), (.vfexp2f, fun _ _ _ _ a _ _ => exp2Enc a),
   (.vfrint, fun _ _ rm x a _ _ => rintEnc x rm a),
   (.vfscale, fun i op rm x a b _ => scaleEnc x rm a (if op / 8 % 4 = 2 then i.toInt else sextOf b x.width)),
   (.vfgetx, fun _ _ _ x a _ _ => getxEnc x a)]

/-- Every element-wise floating-point instruction completes in an open strip: vD under put, the flags of the active elements pending
with their lowest elements, FLAGS and EIDX themselves as before (R250, R329, R331-R335). -/
def Obligations.VectorFloatResults : Prop :=
  ∀ p ∈ floatVecRows, ∀ (f : VFields) (s : State), s.vectorOk (p.1 f) →
    let x := fmtOf f; let w := x.width; let g := s.cur.range w
    let op : Nat → Nat × FlagSet := fun e =>
      p.2 f.imm f.fn.toNat (if f.rm = 7 then s.cur.fp.frm.toNat else f.rm) x (g.el (s.v f.a) w e) (s.operandB g f w e) (g.el (s.v f.e) w e)
    ∃ t, exec (p.1 f) s = .next t ∧ s.resultV t f w w (fun e => (op e).1) ∧ s.pends t (s.contributions g f fun e => (op e).2)

/-- VFCLASS and VFCMP complete to a mask (R336); VCVT converts each active element by R254, equal formats keeping their values but for a
NaN (R337); that E8M0 to E8M0 copies without a flag is the model's reading (log 28).
VQMX completes (R256, R338): the scale of each block of 32 to vE as E8M0, every active element under its block's scale to vD. The scale
of a block of numbers with the greatest magnitude m × 2^e is as R256 gives it; a block of zeros has 0, one with a NaN or an infinity 0xFF. -/
def Obligations.VectorConversions : Prop :=
  (∀ (f : VFields) (s : State), let x := fmtOf f; let w := x.width; let g := s.cur.range w
    (s.vectorOk (.vfclass f) → ∃ t, exec (.vfclass f) s = .next t ∧ s.noFlags t
      ∧ s.resultM t f g fun e => f.imm.getLsbD (classOf x (g.el (s.v f.a) w e)))
    ∧ (s.vectorOk (.vfcmp f) → let c : Nat → Bool × FlagSet := fun e => compareV f.rm (valOf x (g.el (s.v f.a) w e)) (valOf x (s.operandB g f w e))
        ∃ t, exec (.vfcmp f) s = .next t ∧ s.resultM t f g (fun e => (c e).1) ∧ s.pends t (s.contributions g f fun e => (c e).2))
    ∧ (s.vectorOk (.vcvt f) → let y := fmt2Of f; let wide := max y.width w; let q := s.cur.range wide
        let c : Nat → Nat × FlagSet := fun e =>
          if y = .e8m0 ∧ x = .e8m0 then (q.el (s.v f.a) 8 e, 0)
          else convert y x (if f.rm = 7 then s.cur.fp.frm.toNat else f.rm) (f.fn.getLsbD 3) (q.el (s.v f.a) y.width e)
        ∃ t, exec (.vcvt f) s = .next t ∧ s.resultV t f wide w (fun e => (c e).1) ∧ s.pends t (s.contributions q f fun e => (c e).2)))
  ∧ ((∀ (f : VFields) (s : State), s.vectorOk (.vqmx f) →
    let x := fmtOf f; let y := fmt2Of f; let wide := max (max y.width x.width) 8; let g := s.cur.range wide
    let val : Nat → Val := fun e => valOf y (g.el (s.v f.a) y.width e)
    let scale : Nat → Nat := fun b => mxScale x ((((List.range 32).map (32 * b + ·)).filter fun e => s.act g f e).map val)
    ∃ t, exec (.vqmx f) s = .next t ∧ t.cur.vec.regs.m = s.cur.vec.regs.m ∧ s.vecFrame t
      ∧ (∀ r, r ≠ f.d → r ≠ f.e → t.v r = s.v r)
      ∧ (∀ b, b < (g.vl + 31) / 32 → elBits (t.v f.e) 8 b = scale b % 256)
      ∧ (∀ b, (g.vl + 31) / 32 ≤ b → elBits (t.v f.e) 8 b = elBits (s.v f.e) 8 b)
      ∧ (∀ e, elBits (t.v f.d) x.width e
          = s.putsEl g f e ((mxEnc x (if f.rm = 7 then s.cur.fp.frm.toNat else f.rm) (scale (e / 32)) (val e)).1 % 2 ^ x.width) (elBits (s.v f.d) x.width e)))
  ∧ ∀ (dst : Fmt) (xs : List Val), (dst = .e4m3 ∨ dst = .e5m2 ∨ dst = .e2m1) →
    ((∃ v ∈ xs, v.isNan = true ∨ ∃ n, v = .inf n) → mxScale dst xs = 0xFF)
    ∧ ((∀ v ∈ xs, ∃ n e, v = .fin n 0 e) → mxScale dst xs = 0)
    ∧ (∀ n m e, Val.fin n m e ∈ xs → m ≠ 0 → (∀ v ∈ xs, ∃ n2 m2 e2, v = .fin n2 m2 e2 ∧ (m2 = 0 ∨ (Nat.log2 m2 : Int) + e2 ≤ Nat.log2 m + e)) →
        let emx : Int := match dst with | .e4m3 => 8 | .e5m2 => 15 | _ => 2
        (mxScale dst xs : Int) = min 254 (max 0 (Nat.log2 m + e - emx + 127))))

/-- The pairwise tree of R258 over the leaves from `lo` on, `2^k` of them: its value if a leaf is present, and the flags of its nodes
under the lowest element that each covers. -/
def Sys2Proof.Machine.pairTree (node : Nat → Nat → Nat × FlagSet) (leaf : Nat → Option Nat) : Nat → Nat → Option Nat × List (Nat × FlagSet)
  | 0, lo => (leaf lo, [])
  | k + 1, lo =>
    let l := pairTree node leaf k lo
    let r := pairTree node leaf k (lo + 2 ^ k)
    match l.1, r.1 with
    | some a, some b => (some (node a b).1, (lo, (node a b).2) :: (l.2 ++ r.2))
    | some a, none => (some a, l.2 ++ r.2)
    | none, y => (y, l.2 ++ r.2)

/-- The sums of R259 from `z` on, each rounded, with its flags under the element added. -/
def Sys2Proof.Machine.orderedSums (rm : Nat) (x : Fmt) (el : Nat → Nat) (z : Nat) (es : List Nat) : Nat × List (Nat × FlagSet) :=
  es.foldl (fun a e => let r := deliver x rm (addV rm (valOf x a.1) (valOf x (el e))); (r.1, a.2 ++ [(e, r.2)])) (z, [])

/-- VFRED and VFREDO complete whenever a strip stands open and their word is legal. VFRED (R258, R350): its result slot holds the root of
the pairwise tree by element index, joined with g(B) where FN[5] is 1; an absent root gives +0, or g(B) with a NaN made canonical. The
flags of a node are pending under the lowest element it covers, those of the join under the lowest active element. VFREDO (R259, R351): the
active elements are added in increasing order to g(B), or to the first of them, each sum rounded, its flags pending under the element
added. No register changes.
Inactive elements are absent leaves (a reading, log 28). -/
def Obligations.FloatReductions : Prop :=
  (∀ (f : VFields) (s : State), s.vectorOk (.vfred f) →
    let x := fmtOf f; let w := x.width; let g := s.cur.range w
    let node := fredNode f.bk (if f.rm = 7 then s.cur.fp.frm.toNat else f.rm) x
    let root := pairTree node (fun e => if s.act g f e then some (g.el (s.v f.a) w e) else none) (Nat.clog 2 g.vl) 0
    let first := ((List.range g.vl).find? fun e => s.act g f e).getD 0
    let init := (s.snap f.b).toNat % 2 ^ w
    let single : Nat × FlagSet := (if (valOf x init).isNan then nanEnc x else init, if valOf x init = .nan true then flagNV else 0)
    let r : Nat × FlagSet := match root.1 with
      | some a => if f.fn.getLsbD 5 then node init a else (a, 0)
      | none => if f.fn.getLsbD 5 then single else (0, 0)
    ∃ t, exec (.vfred f) s = .next t ∧ s.resultY t f r.1 ∧ s.pends t ((first, r.2) :: root.2))
  ∧ ∀ (f : VFields) (s : State), s.vectorOk (.vfredo f) →
    let x := fmtOf f; let w := x.width; let g := s.cur.range w
    let rm := if f.rm = 7 then s.cur.fp.frm.toNat else f.rm
    let el : Nat → Nat := fun e => g.el (s.v f.a) w e
    let init := (s.snap f.b).toNat % 2 ^ w
    let single : Nat × FlagSet := (if (valOf x init).isNan then nanEnc x else init, if valOf x init = .nan true then flagNV else 0)
    let r : Nat × List (Nat × FlagSet) := match (List.range g.vl).filter (fun e => s.act g f e) with
      | [] => if f.fn.getLsbD 5 then (single.1, [(0, single.2)]) else (0, [])
      | e :: es => if f.fn.getLsbD 5 then orderedSums rm x el init (e :: es) else orderedSums rm x el (el e) es
    ∃ t, exec (.vfredo f) s = .next t ∧ s.resultY t f r.1 ∧ s.pends t r.2

/-! ### Vector memory -/

/-- VLD and VGATH complete (R354-R356). (1) Where every element that takes part lies aligned in its lane's store, or where its address
leads in the device's memory, past the checks of R314, they complete with VL as it was: each such element of vD holds what stands there, the
active elements beyond LEN hold 0, the others are as put leaves them; no byte changes. (2) Whatever the accesses meet (host memory, a
steward service that has ended): where every element has been read, vD holds those values; where element k faults first, the strip is
trimmed to k and VL is k at most. The stream is named in the strip.
(3) VPREF completes with no effect but the naming of its stream (R365). (4) VGLNK with fewer than 16 all-fail VSCNDs behind it completes
under the conditions of (1): it loads its elements and links each; homes may drop links, but never that of the lowest element (R359; which
ones is free, log 12).
Masked elements beyond LEN follow log 28. -/
def Obligations.VectorLoads : Prop :=
  (∀ (f : VFields) (s : State) (place : Elem → Spot), ∀ i ∈ [(Instr.vld f, false), (.vgath f, true)], s.vectorOk i.1 →
    let m := s.vmem f i.2 false
    m.streamOk = true → (∀ x ∈ m.elems s, m.readable s x (place x)) →
    ∃ t, exec i.1 s = .next t ∧ t.store.bytes = s.store.bytes ∧ t.cur.base = s.cur.base ∧ t.cur.fp = s.cur.fp
      ∧ t.cur.vec.vl = s.cur.vec.vl ∧ (∀ r, r ≠ f.d → t.v r = s.v r) ∧ t.cur.vec.regs.m = s.cur.vec.regs.m
      ∧ (∀ y, t.cur.vec.strip = some y → f.qs.toNat ∈ y.named)
      ∧ (∀ x ∈ m.elems s, elBits (t.v f.d) m.w x.e = m.holds s x (place x) % 2 ^ m.w)
      ∧ (∀ e, (∀ x ∈ m.elems s, x.e ≠ e) → elBits (t.v f.d) m.w e = s.putsEl (s.cur.range m.wide) f e 0 (elBits (s.v f.d) m.w e)))
  ∧ (∀ (f : VFields) (s s1 : State) (ls : List Loaded) (k : Option Nat), ∀ i ∈ [(Instr.vld f, false), (.vgath f, true)], s.vectorOk i.1 →
    let m := s.vmem f i.2 false
    m.streamOk = true → m.loadAll s.cur.vectorCx (.of f.ord f.scp) (m.elems s) s = .ok (ls, k) s1 →
    ∃ t, exec i.1 s = .next t ∧ t.store.bytes = s1.store.bytes ∧ t.cur.base = s.cur.base ∧ t.cur.fp = s.cur.fp
      ∧ (∀ x, t.cur.vec.strip = some x → f.qs.toNat ∈ x.named)
      ∧ (k = none → t.cur.vec.vl = s.cur.vec.vl
          ∧ (∀ r, r ≠ f.d → t.v r = s.v r) ∧ t.cur.vec.regs.m = s.cur.vec.regs.m
          ∧ (∀ e, (∀ l ∈ ls, l.x.e ≠ e) → elBits (t.v f.d) m.w e = s.putsEl (s.cur.range m.wide) f e 0 (elBits (s.v f.d) m.w e))
          ∧ (∀ l ∈ ls, elBits (t.v f.d) m.w l.x.e = l.v % 2 ^ m.w))
      ∧ (∀ n x, k = some n → s.cur.vec.strip = some x → t.cur.vec.vl = min n s.cur.vec.vl ∧ ∃ y, t.cur.vec.strip = some y ∧ y.trim = true))
  ∧ (∀ (f : VFields) (s : State), s.vectorOk (.vpref f) → (s.vmem f false false).streamOk = true → ∃ t, exec (.vpref f) s = .next t
      ∧ t.store = s.store ∧ t.cur.base = s.cur.base ∧ t.cur.vec.regs = s.cur.vec.regs ∧ s.noFlags t
      ∧ ∀ x, t.cur.vec.strip = some x → f.qs.toNat ∈ x.named)
  ∧ (∀ (f : VFields) (s : State) (place : Elem → Spot), s.vectorOk (.vglnk f) →
    let m := s.vmem f true true
    let lines := ((m.elems s).map fun x => x.va.toNat / 64).eraseDups
    let all := (m.elems s).map fun x => (⟨x.e, x.va, (place x).loc, true⟩ : Link)
    m.streamOk = true → (sameLines lines s.cur.linkSet = true → s.cur.allFail < 16) → (∀ x ∈ m.elems s, m.readable s x (place x)) →
    ∃ t, exec (.vglnk f) s = .next t ∧ t.store.bytes = s.store.bytes ∧ t.cur.base = s.cur.base ∧ t.cur.vec.vl = s.cur.vec.vl
      ∧ t.cur.links.Sublist all ∧ t.cur.links.head? = all.head?
      ∧ ∀ x ∈ m.elems s, elBits (t.v f.d) m.w x.e = m.holds s x (place x) % 2 ^ m.w)

/-- VST and VSCAT complete (R215, R221, R357). (1) Within the 2,048 bytes of each lane's store buffer, where every element that takes part
lies aligned in its lane's store or where its address leads with write permission, each is buffered in order behind the strip's earlier
stores, and nothing is performed: no byte of memory and no register changes. (2) The same where the search for the places has met anything
else (a steward service that has ended). (3) A store beyond the buffer takes Strip Capacity with the charge as TVAL. -/
def Obligations.VectorStores : Prop :=
  ∀ (f : VFields) (s : State) (x : Strip),
    ∀ i ∈ [(Instr.vst f, (s.vmem f false false).groupCharges, s.vmem f false false),
           (.vscat f, (s.vmem f true false).elemCharges s, s.vmem f true false)], s.vectorOk i.1 →
      let m := i.2.2
      let charge := addCharges x.charge i.2.1
      let most := charge.foldl (fun a c => max a c.2) 0
      m.streamOk = true → s.cur.vec.strip = some x →
      (∀ place : Elem → Spot, most ≤ 2048 → (∀ y ∈ m.elems s, m.finds s .write y (place y)) →
          ∃ t z, exec i.1 s = .next t ∧ t.store.bytes = s.store.bytes ∧ t.cur.base = s.cur.base ∧ t.cur.vec.regs = s.cur.vec.regs
            ∧ t.cur.fp = s.cur.fp ∧ t.cur.vec.strip = some z ∧ z.charge = charge ∧ f.qs.toNat ∈ z.named
            ∧ z.stores = x.stores ++ (m.elems s).map fun y => m.buffered s y (place y))
      ∧ (∀ (xs : List (Elem × Spot)) (s1 : State), most ≤ 2048 → m.spots s.cur.vectorCx (m.elems s) s = .ok xs s1 → s1.cur = s.cur →
          ∃ t z, exec i.1 s = .next t ∧ t.store.bytes = s1.store.bytes ∧ t.cur.base = s.cur.base ∧ t.cur.vec.regs = s.cur.vec.regs
            ∧ t.cur.fp = s.cur.fp ∧ t.cur.vec.strip = some z ∧ z.charge = charge ∧ f.qs.toNat ∈ z.named
            ∧ z.stores = x.stores ++ xs.map fun p => m.buffered s p.1 p.2)
      ∧ (2048 < most → exec i.1 s = vectorTrap s s 0x07 (BitVec.ofNat 64 most))

/-- The vector instructions that end a strip (R358) complete when the checks of every element `xs` pass, the strip commits (to `s2`), no
cancel request, revocation or move waits for that boundary, and the elements lie in plain places of the device's memory (`plainPlaces`).
An element that meets Poison performs nothing; the others do, and Poison is taken as a vector trap of the new strip, which else stands open.
(1) VSCND (R360, R361): an element succeeds whose link still stands with its address, if no lower such element has that address. Exactly the
elements that succeed write, in order; their bits of mD, and no others below VL, are 1. The links are consumed.
(2) VAMO (R362): the elements apply their operation in order, each upon what the lower ones at its place have left; with FN[7] 1 vD receives what
each found. The flags of .FADD merge.
(3) VWAITV (R363): a round reads every element; it ends at once where T is 0 or every element is satisfied, else the hart waits for those that
are not, until 256 T cycles later; (4) so does each later round. No byte of memory changes but A bits.
What the instruction reads as its index IDX it has read before the strip commits (log 28); which links stand is free (log 12). -/
def Obligations.VectorCommitPoints : Prop :=
  ∀ (f : VFields) (s s1 s2 : State) (xs : List (Elem × Spot)),
    let free : State → Prop := fun u => u.cur.wait.cancel = none ∧ u.cur.lease.draining = none ∧ u.cur.wait.move = none
    let kept : State → State → (Elem × Spot → Prop) → Nat → Prop := fun u t writes n => ∀ a,
      (∀ x ∈ xs, (writes x → a < x.2.loc ∨ x.2.loc + n ≤ a) ∧ ∀ l, u.leafBehind x = some l → a < l ∨ l + 8 ≤ a) →
        t.store.bytes.read a = u.store.bytes.read a
    (let m := s.vmem f true true
     let n := m.q.bytes
     let survives : Elem × Spot → Prop := fun x => ∃ l ∈ s2.cur.links, l.elem = x.1.e ∧ l.va = x.1.va
     let first : Elem × Spot → Prop := fun x => survives x ∧ ∀ y ∈ xs, y.1.e < x.1.e → survives y → y.1.va ≠ x.1.va
     let wins : Elem × Spot → Prop := fun x => first x ∧ s2.store.poisoned x.2.loc n = false
     s.vectorOk (.vscnd f) → m.streamOk = true → m.claims s.cur.vectorCx .write true (m.elems s) s = .ok xs s1 → s1.commit = .done s2 → free s2 →
      s2.plainPlaces xs n true →
      ∃ t bad, exec (.vscnd f) s = .next t ∧ t.cur.links = [] ∧ t.cur.base = s2.cur.base ∧ t.cur.vec.regs.v = s2.cur.vec.regs.v
        ∧ (∀ e, e < m.g.vl → ((t.m f.d.toNat).testBit e = true ↔ ∃ x ∈ xs, x.1.e = e ∧ wins x))
        ∧ (∀ e, m.g.vl ≤ e → (t.m f.d.toNat).testBit e = (s2.m f.d.toNat).testBit e)
        ∧ (∀ x ∈ xs, wins x → (∀ y ∈ xs, wins y → x.1.e < y.1.e → y.2.loc ≠ x.2.loc) →
            t.store.bytes.readN x.2.loc n = m.g.el (s2.v f.a) m.w x.1.e)
        ∧ kept s2 t wins n
        ∧ ((∃ x ∈ xs, wins x) → t.cur.allFail = 0)
        ∧ ((∀ x ∈ xs, ¬ wins x) → t.cur.allFail = if xs.isEmpty then s2.cur.allFail else min 16 (s2.cur.allFail + 1))
        ∧ (∀ p, p ∈ bad ↔ ∃ x ∈ xs, first x ∧ s2.store.poisoned x.2.loc n = true ∧ p = (x.1.e, x.1.va)) ∧ t.newStrip bad)
    ∧ (let m := s.vmem f true true
     let n := m.q.bytes
     let op : Nat → Elem → Nat × FlagSet := fun v x => vectorAtomic (bitsOf f.fnN 6 3) m.w v (m.g.el (s2.v f.a) m.w x.e)
     let ys := xs.filter fun x => !s2.store.poisoned x.2.loc n
     let after : Nat → Nat → List (Elem × Spot) → Nat := fun loc v zs => (zs.filter fun y => y.2.loc = loc).foldl (fun v y => (op v y.1).1) v
     let old : Elem × Spot → Nat := fun x => after x.2.loc (s2.store.bytes.readN x.2.loc n) (ys.filter fun y => y.1.e < x.1.e)
     s.vectorOk (.vamo f) → m.streamOk = true → m.claims s.cur.vectorCx .readWrite true (m.elems s) s = .ok xs s1 → s1.commit = .done s2 → free s2 →
      s2.plainPlaces xs n true →
      ∃ t, exec (.vamo f) s = .next t ∧ t.cur.base = s2.cur.base ∧ t.cur.vec.regs.m = s2.cur.vec.regs.m
        ∧ (∀ x ∈ ys, t.store.bytes.readN x.2.loc n = after x.2.loc (s2.store.bytes.readN x.2.loc n) ys)
        ∧ kept s2 t (fun x => x ∈ ys) n
        ∧ (∀ r, r ≠ f.d ∨ bitsOf f.fnN 7 7 = 0 → t.v r = s2.v r)
        ∧ (bitsOf f.fnN 7 7 = 1 → (∀ x ∈ ys, elBits (t.v f.d) m.w x.1.e = old x)
            ∧ ∀ e, (∀ x ∈ ys, x.1.e ≠ e) → elBits (t.v f.d) m.w e = s.putsEl m.g f e 0 (elBits (s2.v f.d) m.w e))
        ∧ (∀ k, t.cur.fp.flags.getLsbD k = (s2.cur.fp.flags.getLsbD k || ys.any fun x => (op (old x) x.1).2.getLsbD k))
        ∧ t.newStrip ((xs.filter fun x => s2.store.poisoned x.2.loc n).map fun x => (x.1.e, x.1.va)))
    ∧ (let m := s.vmem f (bitsOf f.fnN 2 2 = 1) true
     s.vectorOk (.vwaitv f) → m.streamOk = true → s.cur.wait.deadline = none →
      m.claims s.cur.vectorCx .read false (m.elems s) s = .ok xs s1 → s1.commit = .done s2 → free s2 →
      s2.plainPlaces xs m.q.bytes false →
      ∃ t, exec (.vwaitv f) s = .next t ∧ t.cur.base = s2.cur.base ∧ kept s2 t (fun _ => False) m.q.bytes
        ∧ m.roundGives s2 t (xs.map fun x => ⟨x.1.e, x.1.va, x.2.loc, x.2.win⟩) (s2.cycle + 256 * (f.immN % 2048)))
    ∧ ∀ d, let m := s.vmem f (bitsOf f.fnN 2 2 = 1) true
      s.vectorOk (.vwaitv f) → m.streamOk = true → s.cur.wait.deadline = some d → s.cur.wait.bad = none →
      (s.cur.wait.watch.map (·.elem)).Nodup → (∀ w ∈ s.cur.wait.watch, spaceOf w.loc ≠ .host) →
      ∃ t, exec (.vwaitv f) s = .next t ∧ t.cur.base = s.cur.base ∧ t.store.bytes = s.store.bytes ∧ m.roundGives s t s.cur.wait.watch d
/-! ### Matrix instructions -/

/-- The k-steps of one floating-point cell (R260, R261, R377): after `j` of them. A cell that is a NaN keeps its value; one that becomes a
NaN takes the origin of its lane and the k-step counter. -/
def Sys2Proof.Machine.mopaCell (lane kc old : Nat) (a b : Nat → Val) (scale : Nat → Option Int) : Nat → Nat
  | 0 => old
  | j + 1 =>
    let c := mopaCell lane kc old a b scale j
    let origin := 0x7FC00000 + lane * 4096 + min (kc + j) 4095
    if (valOf .f32 c).isNan then c
    else match scale j with
      | none => origin
      | some k => match fmaV 0 ((a j).scaled k) (b j) (valOf .f32 c) with
        | .invalid => origin
        | .quiet => origin
        | x => (deliver .f32 0 x).1

/-- The matrix instructions of an open strip in a session that admits them complete. MZERO and MFILL write the tile, its rows reset
(R376, R379); MOPA and MOPAX run those of their kb k-steps that no earlier part of the member has done (R235, R388), each a rounding multiply-add
in each cell (R377); MOPAI with room in the Marrow keeps each
exact sum V = A + 2^24 × C, A in 24 signed bits (R264, R378, R382); MDRAIN delivers the cells of its band (R262, R380). A carry that
would pass a count of ±127 in TRAP mode is Carry Quota (R385). No other register and no byte of memory changes. -/
def Obligations.MatrixResults : Prop :=
  ∀ (f : VFields) (s : State) (m : Session) (x : Strip), s.cur.vec.session = some m → s.cur.vec.strip = some x →
    let d := f.d.toNat
    let old := s.cur.tile d
    let g : Range := ⟨s.cur.vec.vl, s.cur.vec.vbl⟩
    let kb := s.cur.kb m (max (fmtOf f).width (fmt2Of f).width)
    let j0 := s.cur.stepsDone
    let cellOf : Nat → CellId := fun k => (d, k / m.nl, k % m.nl)
    let prod : Nat → Nat → Nat → Int := fun i n j =>
      intVal (fmtOf f) (f.fn.getLsbD 3) (g.el (s.v f.a) (fmtOf f).width (i * kb + j))
        * intVal (fmt2Of f) (f.fn.getLsbD 2) (g.el (s.v f.b) (fmt2Of f).width (n * kb + j))
    let marks : State → Prop := fun t => ∃ y fl, t.cur.vec.strip = some y ∧ y.flags = x.flags ||| fl ∧ y.eidx = x.eidx
    (s.vectorOk (.mzero f) → s.cur.matrixOk (.mzero f) = true → x.ext = [] → ∃ t, exec (.mzero f) s = .next t ∧ s.tileFrame t d ∧ s.noFlags t
      ∧ t.cur.tile d = ⟨0, true, List.replicate (m.ml * m.nl) 0⟩ ∧ ∀ i n, i < m.ml → t.marrowOf (d, i, n) = 0)
    ∧ (∀ p ∈ [(Instr.mopa f, fun (_ _ _ : Nat) => some (0 : Int)), (Instr.mopax f, fun i n j =>
          let sa := g.el (s.v f.e) 8 (i * (kb / 32) + j / 32)
          let sb := g.el (s.v f.e) 8 (m.ml * (kb / 32) + n * (kb / 32) + j / 32)
          if sa = 0xFF ∨ sb = 0xFF then none else some ((sa : Int) - 127 + (sb - 127)))],
        s.vectorOk p.1 → s.cur.matrixOk p.1 = true → old.kc ≤ 4095 → ∃ t, exec p.1 s = .next t ∧ s.tileFrame t d ∧ marks t
          ∧ t.cur.vec.marrow = s.cur.vec.marrow ∧ (t.cur.tile d).kc = min (old.kc + (kb - j0)) 4095 ∧ (t.cur.tile d).defined = true
          ∧ (t.cur.tile d).cells.length = old.cells.length
          ∧ ∀ k < old.cells.length, (t.cur.tile d).cells.getD k 0 = BitVec.ofNat 32 (mopaCell (cellLane (m.nl / 8) (k / m.nl) (k % m.nl)) old.kc
              (old.cells.getD k 0).toNat (fun j => valOf (fmtOf f) (g.el (s.v f.a) (fmtOf f).width (k / m.nl * kb + (j0 + j))))
              (fun j => valOf (fmt2Of f) (g.el (s.v f.b) (fmt2Of f).width (k % m.nl * kb + (j0 + j))))
              (fun j => p.2 (k / m.nl) (k % m.nl) (j0 + j)) (kb - j0)))
    ∧ (let near : Nat → Bool := fun k => 2 ^ 23 ≤ (old.cells.getD k 0).toInt.natAbs + kb * 65025
       s.vectorOk (.mopai f) → s.cur.matrixOk (.mopai f) = true →
        s.cur.vec.marrow.length + ((List.range old.cells.length).filter near).length ≤ 256 * s.cur.lease.force.quota →
        (∀ k < old.cells.length, -(2 ^ 23) ≤ (old.cells.getD k 0).toInt ∧ (old.cells.getD k 0).toInt < 2 ^ 23
          ∧ (s.marrowOf (cellOf k)).natAbs + kb * 65025 / 2 ^ 24 + 1 ≤ 127) →
        ∃ t, exec (.mopai f) s = .next t ∧ s.tileFrame t d ∧ s.noFlags t ∧ (t.cur.tile d).kc = min (old.kc + (kb - j0)) 4095
          ∧ (t.cur.tile d).defined = true ∧ (t.cur.tile d).cells.length = old.cells.length
          ∧ ∀ k < old.cells.length, let a := ((t.cur.tile d).cells.getD k 0).toInt
              a ≥ -(2 ^ 23) ∧ a < 2 ^ 23 ∧ a + 2 ^ 24 * t.marrowOf (cellOf k) = (old.cells.getD k 0).toInt + 2 ^ 24 * s.marrowOf (cellOf k)
                + ((List.range (kb - j0)).map fun j => prod (k / m.nl) (k % m.nl) (j0 + j)).sum)
    ∧ (∀ (c : CellId) (n : Int), s.cur.lease.force.mode = true → 127 < (s.marrowOf c + n).natAbs → carry s c n =
        .trap 0x08 (BitVec.ofNat 64 (s.cur.vec.marrow.length % 2 ^ 13 + 2 ^ 14 + c.1 * 2 ^ 17 + c.2.1 * 2 ^ 19 + c.2.2 * 2 ^ 28)) s)
    ∧ (let h := s.cur.bandRows m 32; let row := f.immN * h
       let v : Nat → Nat := fun e => g.el (s.v f.a) 32 e
       s.vectorOk (.mfill f) → s.cur.matrixOk (.mfill f) = true → x.ext = [] → (old.defined = true → old.cells.length = m.ml * m.nl) →
       (m.kind = false → s.cur.vec.marrow.length + ((List.range (h * m.nl)).filter fun e => (fillCell (sextOf (v e) 32)).2 ≠ 0).length
           ≤ 256 * s.cur.lease.force.quota ∧ ∀ e < h * m.nl, (fillCell (sextOf (v e) 32)).2.natAbs ≤ 127) →
       ∃ t, exec (.mfill f) s = .next t ∧ s.tileFrame t d ∧ s.noFlags t ∧ (t.cur.tile d).defined = true
         ∧ (t.cur.tile d).kc = (if old.defined then old.kc else 0) ∧ (t.cur.tile d).cells.length = m.ml * m.nl
         ∧ (∀ k < m.ml * m.nl, ¬(row * m.nl ≤ k ∧ k < (row + h) * m.nl) →
             (t.cur.tile d).cells.getD k 0 = if old.defined then old.cells.getD k 0 else 0)
         ∧ ∀ e < h * m.nl, let c := (t.cur.tile d).cells.getD (row * m.nl + e) 0
             (m.kind = true → c = BitVec.ofNat 32 (v e))
             ∧ (m.kind = false → -(2 ^ 23) ≤ c.toInt ∧ c.toInt < 2 ^ 23 ∧ c.toInt + 2 ^ 24 * t.marrowOf (cellOf (row * m.nl + e)) = sextOf (v e) 32))
    ∧ (let w := (fmtOf f).width; let h := s.cur.bandRows m w; let row := f.immN * h; let src := s.cur.tile f.a.toNat
       let put : State → (Nat → Nat) → Prop := fun t op => (∀ r, r ≠ f.d → t.v r = s.v r) ∧ t.cur.vec.regs.m = s.cur.vec.regs.m
         ∧ t.cur.vec.regs.w = s.cur.vec.regs.w ∧ marks t ∧ ∀ e, elBits (t.v f.d) w e = if e < h * m.nl then op e % 2 ^ w else 0
       let cell : Nat → BitVec 32 := fun e => src.cells.getD (row * m.nl + e) 0
       let value : Nat → Int := fun e => (cell e).toInt + 2 ^ 24 * s.marrowOf (f.a.toNat, (row * m.nl + e) / m.nl, (row * m.nl + e) % m.nl)
       s.vectorOk (.mdrain f) → s.cur.matrixOk (.mdrain f) = true → src.cells.length = m.ml * m.nl →
       (m.kind = true → ∃ t, exec (.mdrain f) s = .next t ∧ s.vecFrame t ∧ put t fun e => let c := (cell e).toNat
          if fmtOf f = .f32 then c else if c / 2 ^ 22 = 0x1FF then (drainOrigin (fmtOf f) c).1
          else (convert .f32 (fmtOf f) (s.cur.modeN f.rm) false c).1)
       ∧ (m.kind = false → m.area = 0 → ∃ t, exec (.mdrain f) s = .next t ∧ s.vecFrame t ∧ put t fun e =>
           if fmtOf f = .i32 then wrapTo (max (-(2 ^ 31)) (min (2 ^ 31 - 1) (value e))) 32 else wrapTo (value e) 64)
       ∧ (∀ ls s1, m.kind = false → m.area ≠ 0 → s1.cur = s.cur →
           drainInts (fmtOf f) m f.a.toNat (row * m.nl) ((src.cells.drop (row * m.nl)).take (h * m.nl)) s = .ok ls s1 →
           ∃ t, exec (.mdrain f) s = .next t ∧ t.store = s1.store ∧ put t fun e => (ls.getD e (0, 0)).1))

/-! ### The machine as a whole -/

/-- R203: an access whose ORD is plain and whose SCP is not 0 takes Illegal Encoding: a load, store, AMO or CAS as a scalar trap, a vector
memory instruction as a vector trap, each with its word as TVAL. -/
def Obligations.PlainAccessWithScope : Prop :=
  (∀ (d a b : Gpr) (w : BitVec 2) (c : BitVec 3) (k : BitVec 10) (n : BitVec 1) (q : BitVec 4) (s : State), c ≠ 0 →
    ∀ i ∈ [Instr.ld d a w 0 c k, .ldu d a w 0 c k, .st d a w 0 c k, .amo d a b 0 c n q, .cas d a b 0 c n],
      exec i s = .next (s.scalarTrap 0x01 i.word))
  ∧ (∀ (f : VFields) (s : State), s.vectorReady = true → f.ord = 0 → f.scp ≠ 0 →
    ∀ i ∈ [Instr.vld f, .vst f, .vgath f, .vscat f, .vglnk f, .vscnd f, .vamo f, .vwaitv f, .vpref f],
      exec i s = vectorTrap s s 0x01 i.word)

/-- No instruction and no event is refused: every one goes on in every state, but a vector word without an open strip and a block, which
faults; and a step goes on unless the agenda itself names such a word as an event, which no hardware does. -/
def Obligations.NeverRefused : Prop :=
  (∀ (i : Instr) (s : State), (∃ t, exec i s = .next t) ∨ (exec i s = .fault .noStrip ∧ s.vectorReady = false ∧ ∃ w, encode i = .vector w))
  ∧ (∀ s : State, (∃ t, step s = .next t) ∨ ∃ i w rest, s.agenda = .event i :: rest ∧ encode i = .vector w ∧ s.vectorReady = false)

/-- Right after reset every memory is in its canonical form and empty, no hart runs, no frame has an owner and no start-up step has
begun (R27, R28, R50, R58); and a slot's registers stand at the values of R148.
Registers without a reset value in the manual, and memory before the scrub, stand at the values of logs 1 and 4, which are the model's choice. -/
def Obligations.ResetValues : Prop :=
  State.reset.memOk ∧ State.reset.store = Store.reset ∧ State.reset.others = [] ∧ State.reset.engines = Engines.reset
  ∧ (∀ d : Fin 4, (State.reset.dies[d]).boot = ⟨0, false, 0, 0⟩ ∧ (State.reset.dies[d]).thalert = 760 ∧ (State.reset.dies[d]).hmargin = 2000
      ∧ (State.reset.dies[d]).launchto = 200)
  ∧ ∀ h : HartId, let x := Hart.reset h
    x.occ = .empty ∧ x.fp.flags = 0 ∧ x.fp.frm = 0 ∧ (∀ k : Fin 5, x.fp.eidx[k] = 0xFFFFFFFF) ∧ x.vec.vl = 0 ∧ x.vec.vbl = 0 ∧ x.vec.cxa = 0
    ∧ x.trap.emuv = 0 ∧ x.ev.mhbase = 0 ∧ x.ev.evl = 0 ∧ x.ev.evr = 0 ∧ x.trap.depth = 0 ∧ x.cyc = ⟨0, 0, 0, 0, 0⟩
    ∧ (∀ k : Fin 16, x.qs.q[k] = Stream.off) ∧ x.qs.cq0 = [] ∧ x.qs.cq1 = [] ∧ x.qs.xq = [] ∧ x.vec.queue = []
    ∧ (∀ k : Fin 8, x.vec.y[k] = 0) ∧ x.lease.state = .none

/-- Every step of every state keeps every memory in its canonical form: addresses strictly rising, no listed byte 0.
The canonical form is the model's layout of R164 (log 4). -/
def Obligations.StepKeepsMemory : Prop :=
  ∀ s t : State, s.memOk → step s = .next t → t.memOk

/-! ### Leases, strips, sessions -/

/-- The lease and session instructions complete. VLEASE of a legal request gives the old VLREQ and enters the request (R120, R122, R390); a
reserved bit, a broken rule or an open session is Illegal Encoding, a need above every cluster's live Pods Lease Impossible (R140). VREL
ends the strip and the lease (R394). MBEGIN opens a session on a HELD square with the shape of R371; MEND closes it (R368, R369).
VREL clears all of VLREQ (a reading, log 31). -/
def Obligations.LeaseInstructions : Prop :=
  ∀ (d a : Gpr) (s : State),
    (s.admits (.vlease d a) →
      (∀ r, Request.ofWord ((s.g a).toNat % 2 ^ 32) = some r → r.ok = true → s.cur.vec.session = none → r.need ≤ s.mostLive s.cur.id.die →
        ∃ t, exec (.vlease d a) s = .next t ∧ t.g d = (if d = 0 then 0 else s.cur.lease.vlreq) ∧ t.pc = s.pc + 4 ∧ s.keepsRegs t d
          ∧ t.cur.vec = s.cur.vec ∧ t.cur.fp = s.cur.fp
          ∧ (t.cur.lease.state ≠ .none ∨ s.cur.lease.area = none → t.store = s.store ∧ t.others = s.others)
          ∧ t.cur.lease.pods = s.cur.lease.pods ∧ t.cur.lease.force = s.cur.lease.force ∧ t.cur.lease.pri = s.cur.lease.pri
          ∧ (s.cur.lease.state ≠ .suspended → t.cur.lease.req = r)
          ∧ (s.cur.lease.state = .none ∨ s.cur.lease.state = .wait → t.cur.lease.state = if r.min = 0 then .none else .wait)
          ∧ (s.cur.lease.state = .held ∨ s.cur.lease.state = .suspended → t.cur.lease.state = s.cur.lease.state))
      ∧ ((s.cur.vec.session.isSome = true ∨ Request.ofWord ((s.g a).toNat % 2 ^ 32) = none
            ∨ ∃ r, Request.ofWord ((s.g a).toNat % 2 ^ 32) = some r ∧ r.ok = false) →
          exec (.vlease d a) s = .next (s.scalarTrap 0x01 (Instr.vlease d a).word))
      ∧ (∀ r, Request.ofWord ((s.g a).toNat % 2 ^ 32) = some r → r.ok = true → s.cur.vec.session = none → s.mostLive s.cur.id.die < r.need →
          exec (.vlease d a) s = .next (s.scalarTrap 0x0F (BitVec.ofNat 64 (r.need % 32 + s.mostLive s.cur.id.die * 256)))))
    ∧ (∀ s1, s.admits .vrel → s.cur.vec.session = none → s.cur.vec.queue = [] → s.commit = .done s1 → s1.cur.wait.cancel = none →
        ∃ t, exec .vrel s = .next t ∧ t.pc = s1.pc + 4 ∧ (∀ r, t.g r = s1.g r) ∧ (s1.cur.lease.area = none → t.store = s1.store) ∧ t.cur.lease.state = .none
          ∧ (s1.cur.lease.state ≠ .none → t.cur.lease.pods = [] ∧ t.cur.lease.vlreq = 0 ∧ t.cur.vec.vl = 0 ∧ t.cur.vec.strip = none))
    ∧ (∀ k, s.admits (.mbegin k) → s.cur.vec.session = none → s.cur.stripOpen = false → s.cur.vec.queue = [] → s.cur.lease.state = .held →
        ∀ sq side, (sq, side) ∈ [(1, 8), (4, 16), (16, 32)] → s.cur.lease.force.sq = sq →
        ∃ t, exec (.mbegin k) s = .next t ∧ t.cur.vec.session = some ⟨decide (k = 0), if k = 0 then 8 * side else 16 * side, 8 * side, s.cur.vec.cxa, []⟩
          ∧ (∀ n, t.cur.tile n = Tile.undef) ∧ t.cur.vec.marrow = [] ∧ t.pc = s.pc + 4 ∧ (∀ r, t.g r = s.g r)
          ∧ t.cur.lease = s.cur.lease ∧ t.cur.fp = s.cur.fp ∧ t.store = s.store ∧ t.cur.vec.regs.v = s.cur.vec.regs.v)
    ∧ (∀ k, s.admits (.mbegin k) → (s.cur.vec.session.isSome = true ∨ s.cur.stripOpen = true) →
        exec (.mbegin k) s = .next (s.scalarTrap 0x01 (Instr.mbegin k).word))
    ∧ (∀ k, s.admits (.mbegin k) → s.cur.vec.session = none → s.cur.stripOpen = false →
        (s.cur.lease.state = .none → exec (.mbegin k) s = .next (s.scalarTrap 0x0F 0))
        ∧ (s.cur.lease.state = .held → s.cur.lease.force.sq = 0 → exec (.mbegin k) s = .next (s.scalarTrap 0x01 (Instr.mbegin k).word)))
    ∧ (s.admits .mend → (s.cur.vec.session = none ∨ s.cur.stripOpen = true) → exec .mend s = .next (s.scalarTrap 0x01 (Instr.mend).word))
    ∧ (∀ m s1, s.admits .mend → s.cur.vec.session = some m → s.cur.stripOpen = false → s.cur.vec.queue = [] → s.closeSession = .ok () s1 →
        ∃ t, exec .mend s = .next t ∧ t.cur.vec.session = none ∧ t.cur.vec.marrow = [] ∧ (∀ n, t.cur.tile n = Tile.undef)
          ∧ t.cur.lease = s1.cur.lease ∧ t.pc = s1.pc + 4 ∧ (∀ r, t.g r = s1.g r) ∧ t.store = s1.store)

/-- The strip instructions complete. VSETL, once the earlier blocks are done and the strip has ended by commit, applies the grant of a HELD
lease, sets VL to the lesser of g(A) and VLMAX, and opens a strip (R124, R126, R255, R391); without a lease it is Lease Impossible. VFETCH
queues a block with its snapshot (R158, R216, R392); VSYNC makes y0-y7 visible and gives the status (R393); VCOMMIT commits the strip and
opens the next (R394).
That VCOMMIT too makes the result slots of the strip visible, which the programs of R424 to R427 read, and the order of operand checks and
commit are readings (log 23); what a grant leaves undefined is free (logs 3, 14). -/
def Obligations.StripInstructions : Prop :=
  ∀ (d a : Gpr) (s : State),
    (∀ (st b : BitVec 1) (f : BitVec 4) (fmt : Fmt) (s1 : State), s.admits (.vsetl d a st b f) → Fmt.ofCode f.toNat = some fmt →
      s.cur.vec.queue = [] → s.commit = .done s1 → s1.cur.wait.cancel = none → s1.cur.lease.draining = none → s1.cur.wait.move = none →
      let l := s1.cur.lease
      let n := min l.next l.req.pref
      let vl := min (s1.g a).toNat (256 * n * (128 / fmt.width))
      (l.state = .none → exec (.vsetl d a st b f) s = .next (s1.scalarTrap 0x0F 0))
      ∧ (l.state = .suspended → exec (.vsetl d a st b f) s = .next (s1.stalled .lease))
      ∧ (l.state = .held → l.req.min ≠ 0 → l.req.sq = l.force.sq → l.req.quota = l.force.quota → l.next < l.req.min →
          l.pods.length ≤ l.next →
          exec (.vsetl d a st b f) s = .next (s1.stalled .lease))
      ∧ (l.state = .held → l.req.min ≠ 0 → l.req.sq = l.force.sq → l.req.quota = l.force.quota → l.req.min ≤ l.next →
          n ≤ l.pods.length + l.promised.length →
          ∃ t x, exec (.vsetl d a st b f) s = .next t ∧ t.g d = (if d = 0 then 0 else BitVec.ofNat 64 vl) ∧ t.pc = s1.pc + 4 ∧ s1.keepsRegs t d
            ∧ t.cur.vec.vl = vl ∧ t.cur.vec.vbl = (if b = 1 then (vl + 31) / 32 * 32 else vl) ∧ t.cur.vec.fmt = fmt
            ∧ t.cur.vec.seenVl = vl ∧ t.cur.lease.pods.length = n ∧ t.cur.lease.force = l.req ∧ t.cur.lease.stable = decide (st = 1)
            ∧ t.cur.vec.strip = some x ∧ x.aborted = false ∧ x.stores = [] ∧ x.replay = [] ∧ x.openVl = vl
            ∧ t.store = s1.store ∧ t.cur.fp = s1.cur.fp))
    ∧ (s.admits (.vfetch a) →
      (s.cur.vec.strip = none → s.cur.vec.reopen = none → exec (.vfetch a) s = .next (s.scalarTrap 0x01 (Instr.vfetch a).word))
      ∧ ∀ x, s.cur.vec.strip = some x → x.aborted = false →
        ((s.g a).toNat % 8 ≠ 0 → exec (.vfetch a) s = .next (s.scalarTrap 0x04 (s.g a)))
        ∧ ((s.g a).toNat % 8 = 0 → Config.vqDepth ≤ s.cur.vec.queue.length → exec (.vfetch a) s = .next (s.stalled .queueFull))
        ∧ ((s.g a).toNat % 8 = 0 → s.cur.vec.queue.length < Config.vqDepth → 4 ≤ x.replay.length →
            exec (.vfetch a) s = s.vectorTrapHere 0x07 (BitVec.ofNat 64 (2 ^ 63 + 5)))
        ∧ ((s.g a).toNat % 8 = 0 → s.cur.vec.queue.length < Config.vqDepth → x.replay.length < 4 → ∃ t, exec (.vfetch a) s = .next t
            ∧ t.pc = s.pc + 4 ∧ (∀ r, t.g r = s.g r) ∧ t.store = s.store ∧ t.cur.fp = s.cur.fp ∧ t.cur.vec.regs = s.cur.vec.regs
            ∧ (∃ b, t.cur.vec.queue = s.cur.vec.queue ++ [b] ∧ b.addr = s.g a ∧ b.regs = s.cur.base.g ∧ b.head = 0 ∧ b.ended = false)
            ∧ t.cur.vec.strip = some { x with replay := x.replay ++ [⟨s.g a, s.cur.base.g, 0, s.store.serial⟩] }))
    ∧ (s.admits (.vsync d) →
      (s.cur.vec.queue ≠ [] → exec (.vsync d) s = .next (s.stalled .earlierBlocks))
      ∧ (s.cur.vec.queue = [] → ∃ t, exec (.vsync d) s = .next t ∧ t.pc = s.pc + 4 ∧ s.keepsRegs t d
          ∧ t.g d = (if d = 0 then 0 else BitVec.ofNat 64 ((if s.cur.vec.status = some true then 1 else 0)
              + (if s.cur.vec.status.isSome && s.cur.vec.strip.any (·.trim) then 2 else 0) + s.cur.vec.vl * 2 ^ 32))
          ∧ t.cur.vec.y = s.cur.vec.yBlock ∧ t.cur.vec.seenVl = s.cur.vec.vl ∧ t.cur.vec.seenVbl = s.cur.vec.vbl
          ∧ t.cur.vec.strip = s.cur.vec.strip ∧ t.cur.vec.regs = s.cur.vec.regs ∧ t.store = s.store ∧ t.cur.fp = s.cur.fp))
    ∧ (∀ s1, s.admits .vcommit → s.cur.vec.queue = [] → s.commit = .done s1 → s1.cur.wait.cancel = none → s1.cur.lease.draining = none →
        s1.cur.wait.move = none → ∃ t, exec .vcommit s = .next t ∧ t.pc = s1.pc + 4 ∧ (∀ r, t.g r = s1.g r) ∧ t.store = s1.store
          ∧ t.cur.fp = s1.cur.fp ∧ t.cur.vec.regs = s1.cur.vec.regs ∧ t.cur.lease = s1.cur.lease
          ∧ (s.cur.stripOpen = true → t.cur.vec.y = s1.cur.vec.yBlock ∧ ∃ x, t.cur.vec.strip = some x ∧ x.aborted = false ∧ x.stores = [] ∧ x.named = [])
          ∧ (s.cur.stripOpen = false → t.cur.vec.y = s1.cur.vec.y ∧ t.cur.vec.strip = s1.cur.vec.strip))

/-! ### Streams, queues, sync words -/

/-- The stream instructions with nothing in the vector queue and the stream not named in the open strip complete: QSET reads the 32 bytes of
a descriptor and activates the stream with IDX 0 (R176, R395), QSET.OFF leaves it inactive, QPOS gives and sets IDX, QPOS.RD gives it;
QFENCE makes later entries of the queues it names wait for the earlier ones (R210, R398).
SWARM and SWWAIT (R180-R182, R399) complete on a sync word that they may access: SWARM sets TARGET, clears the count and FLAGS, leaves and gives
GEN; SWWAIT gives GEN once it has reached the generation of g(B), and sleeps before. A word that is not aligned to 16 is Misaligned; one that
lies outside the core and chip scratchpads takes Permission (R180). -/
def Obligations.StreamInstructions : Prop :=
  (∀ (d a : Gpr) (q : BitVec 4) (s : State),
    let idle := s.cur.vec.queue = [] ∧ ∀ x, s.cur.vec.strip = some x → x.aborted = true ∨ q.toNat ∉ x.named
    let others : State → Prop := fun t => ∀ n, n % 16 ≠ q.toNat → t.cur.stream n = s.cur.stream n
    let old := s.cur.stream q.toNat
    (∀ w0 w1 w2 w3 s1 s2 s3 s4, idle → s.admits (.qset a q) → (s.g a).toNat % 8 = 0 →
      let cx := { s.cur.cx with keep := true }
      readMem s cx (s.g a) 8 .plain = .ok w0 s1 → readMem s1 cx (s.g a + 8) 8 .plain = .ok w1 s2 →
      readMem s2 cx (s.g a + 16) 8 .plain = .ok w2 s3 → readMem s3 cx (s.g a + 24) 8 .plain = .ok w3 s4 →
      let v : Stream := ⟨BitVec.ofNat 64 w0, BitVec.ofNat 32 w1, BitVec.ofNat 32 (w1 / 2 ^ 32), BitVec.ofNat 32 w2, BitVec.ofNat 32 (w2 / 2 ^ 32),
        BitVec.ofNat 8 w3, BitVec.ofNat 8 (w3 / 256), 0, true⟩
      let legal := w3 % 256 ≤ 4 ∧ w3 / 256 % 256 ≤ 1 ∧ w3 / 65536 = 0 ∧ (w3 % 256 = 0 → w2 / 2 ^ 32 % 2 ^ 32 % 2 = 0)
        ∧ (w3 / 256 % 256 = 0 → w2 % 2 ^ 32 ≠ 0 ∧ (w3 % 256 = 0 → w2 % 2 = 0))
      s4.cur = s.cur ∧ (legal → ∃ t, exec (.qset a q) s = .next t ∧ t.cur.stream q.toNat = v ∧ others t
          ∧ t.pc = s.pc + 4 ∧ (∀ r, t.g r = s.g r) ∧ t.store = s4.store ∧ t.cur.vec = s.cur.vec)
      ∧ (¬legal → ∃ s5 : State, exec (.qset a q) s = .next (s5.scalarTrap 0x01 (Instr.qset a q).word) ∧ s5.cur = s.cur))
    ∧ (idle → s.admits (.qsetOff q) → ∃ t, exec (.qsetOff q) s = .next t ∧ t.cur.stream q.toNat = { old with active := false } ∧ others t
        ∧ t.pc = s.pc + 4 ∧ (∀ r, t.g r = s.g r) ∧ t.store = s.store ∧ t.cur.vec = s.cur.vec)
    ∧ (idle → s.admits (.qpos d a q) → ∃ t, exec (.qpos d a q) s = .next t ∧ t.cur.stream q.toNat = { old with idx := s.g a } ∧ others t
        ∧ t.g d = (if d = 0 then 0 else old.idx) ∧ s.keepsRegs t d ∧ t.pc = s.pc + 4 ∧ t.store = s.store ∧ t.cur.vec = s.cur.vec)
    ∧ (idle → s.admits (.qposRd d q) → ∃ t, exec (.qposRd d q) s = .next t ∧ s.resultIs t d old.idx)
    ∧ (s.admits (.qset a q) → s.cur.vec.queue ≠ [] → exec (.qset a q) s = .next (s.stalled .earlierBlocks))
    ∧ (∀ x, s.cur.vec.queue = [] → s.cur.vec.strip = some x → x.aborted = false → q.toNat ∈ x.named →
        ∀ i ∈ [Instr.qset a q, .qsetOff q, .qpos d a q, .qposRd d q], s.admits i → exec i s = .next (s.scalarTrap 0x01 i.word))
    ∧ (∀ (c : BitVec 3) (x y z : BitVec 1), s.admits (.qfence c x y z) → ∃ t, exec (.qfence c x y z) s = .next t
        ∧ t.pc = s.pc + 4 ∧ (∀ r, t.g r = s.g r) ∧ t.store = s.store ∧ t.cur.vec = s.cur.vec ∧ t.cur.qs.cq0 = s.cur.qs.cq0 ∧ t.cur.qs.cq1 = s.cur.qs.cq1
        ∧ t.cur.qs.xq = s.cur.qs.xq ∧ t.cur.qs.q = s.cur.qs.q
        ∧ ∀ e ∈ [(z, s.cur.qs.fence0, t.cur.qs.fence0), (y, s.cur.qs.fence1, t.cur.qs.fence1), (x, s.cur.qs.fenceX, t.cur.qs.fenceX)],
            (e.1 = 0 → e.2.2 = e.2.1)
            ∧ (e.1 = 1 → e.2.2.c0 = max e.2.1.c0 (if z = 1 then s.cur.qs.issued else 0)
                ∧ e.2.2.c1 = max e.2.1.c1 (if y = 1 then s.cur.qs.issued else 0) ∧ e.2.2.x = max e.2.1.x (if x = 1 then s.cur.qs.issued else 0))))
  ∧ (∀ (d a b : Gpr) (s s1 : State) (p : Spot), s.memOk →
    let gen := s1.peek ⟨p.loc + 8, p.key, p.win⟩ 4
    let want := (s.g b).toNat % 2 ^ 32
    (∀ i ∈ [Instr.swarm d a b, .swwait d a b], s.admits i → (s.g a).toNat % 16 ≠ 0 → exec i s = .next (s.scalarTrap 0x04 (s.g a)))
    ∧ (∀ i ∈ [(Instr.swarm d a b, Kind.readWrite), (.swwait d a b, .read)], s.admits i.1 → (s.g a).toNat % 16 = 0 →
        resolve s s.cur.cx i.2 (s.g a) = .ok p s1 → spaceOf p.loc ≠ .core → spaceOf p.loc ≠ .chip →
        exec i.1 s = .next (s1.scalarTrap 0x06 (s.g a)))
    ∧ (s.admits (.swarm d a b) → syncSpot s s.cur.cx .readWrite (s.g a) = .ok p s1 → s1.writeLocked s.cur.cx (s.g a) p = false →
        (∀ l, s.leafOf (s.g a) = some l → l + 8 ≤ p.loc ∨ p.loc + 16 ≤ l) → ∃ t, exec (.swarm d a b) s = .next t
        ∧ t.g d = (if d = 0 then 0 else BitVec.ofNat 64 gen) ∧ t.pc = s.pc + 4 ∧ s.keepsRegs t d
        ∧ t.store.bytes.readN p.loc 4 = want ∧ t.store.bytes.readN (p.loc + 4) 4 = 0 ∧ t.store.bytes.readN (p.loc + 12) 4 = 0
        ∧ s.cur.onlyRegsAndLinks t.cur ∧ s.othersKeep t
        ∧ s.keepsBytes t p.loc 16 (s.leafOf (s.g a)) ∧ t.store.bytes.readN (p.loc + 8) 4 = s.store.bytes.readN (p.loc + 8) 4)
    ∧ (s.admits (.swwait d a b) → syncSpot s s.cur.cx .read (s.g a) = .ok p s1 → s1.cur = s.cur → s1.adLocked s.cur.cx (s.g a) p false = false →
        ((gen + 2 ^ 32 - want) % 2 ^ 32 < 2 ^ 31 → ∃ t, exec (.swwait d a b) s = .next t ∧ t.g d = (if d = 0 then 0 else BitVec.ofNat 64 gen)
          ∧ t.pc = s.pc + 4 ∧ s.keepsRegs t d ∧ s.keepsBytes t 0 0 (s.leafOf (s.g a)) ∧ s.cur.onlyRegsAndLinks t.cur ∧ s.othersKeep t)
        ∧ (2 ^ 31 ≤ (gen + 2 ^ 32 - want) % 2 ^ 32 → ∃ t, exec (.swwait d a b) s = .next t ∧ t.cur.wait.stall = some .asleep ∧ t.pc = s.pc
          ∧ (∀ r, t.g r = s.g r) ∧ t.store.bytes = s.store.bytes)))

/-- The copy and fabric instructions, which are commit points, complete with the vector side at rest: QCOPY and QPUT put an entry into their
queue, with room in it, and advance the streams by the count (R396); XPUT, XGET and XSIG put one into XQ (R400). A count of 0 enters nothing.
Stream checks at a count of 0 are a reading (log 32). -/
def Obligations.QueueInstructions : Prop :=
  ∀ (d a b : Gpr) (s : State), s.atRest →
    let n := (s.g a).toNat % 2 ^ 32
    let m := (s.g b).toNat % 2 ^ 32
    let virt : Nat → Prop := fun k => (s.cur.stream k).active = true ∧ (s.cur.stream k).space = 0
    let named : State → Prop := fun s1 =>
      if s.g d = 0 then s1 = s else ∃ p, syncSpot s { s.cur.cx with wide := true, cls := 1 } .readWrite (s.g d) = .ok p s1
    let goesOn : State → State → Prop := fun s1 t => t.pc = s.pc + 4 ∧ (∀ r, t.g r = s.g r) ∧ t.store = s1.store ∧ t.cur.vec = s.cur.vec ∧ t.cur.fp = s.cur.fp
    let moved : Stream → Stream := fun v => { v with idx := v.idx + BitVec.ofNat 64 n }
    let queue : Hart → BitVec 1 → List CopyEntry := fun x k => if k = 0 then x.qs.cq0 else x.qs.cq1
    let fence : BitVec 1 → After := fun k => if k = 0 then s.cur.qs.fence0 else s.cur.qs.fence1
    (∀ (q r : BitVec 4) (k : BitVec 1) (s1 : State), s.admits (.qcopy d a q k r) → virt q.toNat → virt r.toNat →
        (s.cur.stream r.toNat).esz = (s.cur.stream q.toNat).esz → named s1 →
        (n = 0 → ∃ t, exec (.qcopy d a q k r) s = .next t ∧ goesOn s1 t ∧ t.cur.qs = s.cur.qs)
        ∧ (n ≠ 0 → (queue s.cur k).length < Config.queueDepth → ∃ t, exec (.qcopy d a q k r) s = .next t ∧ goesOn s1 t
            ∧ queue t.cur k = queue s.cur k ++
                [⟨some (s.cur.stream r.toNat), 0, s.cur.stream q.toNat, n, s.g d, s.cur.base.level, 0, s.cur.qs.issued, fence k⟩]
            ∧ queue t.cur (1 - k) = queue s.cur (1 - k) ∧ t.cur.qs.xq = s.cur.qs.xq ∧ t.cur.qs.issued = s.cur.qs.issued + 1
            ∧ t.cur.stream q.toNat = moved (s.cur.stream q.toNat) ∧ t.cur.stream r.toNat = moved (s.cur.stream r.toNat)
            ∧ ∀ j, j % 16 ≠ q.toNat → j % 16 ≠ r.toNat → t.cur.stream j = s.cur.stream j)
        ∧ (n ≠ 0 → Config.queueDepth ≤ (queue s.cur k).length → ∃ t, exec (.qcopy d a q k r) s = .next t ∧ t.cur.wait.stall = some .queueFull
            ∧ t.pc = s.pc ∧ t.cur.qs = s.cur.qs))
    ∧ (∀ (q r : BitVec 4) (k : BitVec 1), s.admits (.qcopy d a q k r) →
        ¬(virt q.toNat ∧ virt r.toNat ∧ (s.cur.stream r.toNat).esz = (s.cur.stream q.toNat).esz) →
        exec (.qcopy d a q k r) s = .next (s.scalarTrap 0x01 (Instr.qcopy d a q k r).word))
    ∧ (∀ (q : BitVec 4) (k : BitVec 1) (s1 : State), s.admits (.qput d a b k q) → virt q.toNat → named s1 →
        (n = 0 → ∃ t, exec (.qput d a b k q) s = .next t ∧ goesOn s1 t ∧ t.cur.qs = s.cur.qs)
        ∧ (n ≠ 0 → (queue s.cur k).length < Config.queueDepth → ∃ t, exec (.qput d a b k q) s = .next t ∧ goesOn s1 t
            ∧ queue t.cur k = queue s.cur k ++ [⟨none, s.g b, s.cur.stream q.toNat, n, s.g d, s.cur.base.level, 0, s.cur.qs.issued, fence k⟩]
            ∧ queue t.cur (1 - k) = queue s.cur (1 - k) ∧ t.cur.stream q.toNat = moved (s.cur.stream q.toNat)
            ∧ ∀ j, j % 16 ≠ q.toNat → t.cur.stream j = s.cur.stream j))
    ∧ (∀ p ∈ [(Instr.xput d a b, FabricKind.put), (.xget d a b, .get)], s.admits p.1 →
        (2 ^ 56 ≤ (s.g d).toNat → exec p.1 s = .next (s.scalarTrap 0x01 p.1.word))
        ∧ ((s.g d).toNat < 2 ^ 56 → m = 0 → ∃ t, exec p.1 s = .next t ∧ goesOn s t ∧ t.cur.qs = s.cur.qs)
        ∧ ((s.g d).toNat < 2 ^ 56 → m ≠ 0 → s.cur.qs.xq.length < Config.queueDepth → ∃ t, exec p.1 s = .next t ∧ goesOn s t
            ∧ t.cur.qs.xq = s.cur.qs.xq ++ [⟨p.2, (s.g d).setWidth 56, s.g a, m, s.cur.base.level, 0, s.cur.qs.issued, s.cur.qs.fenceX, none, none⟩]
            ∧ t.cur.qs.cq0 = s.cur.qs.cq0 ∧ t.cur.qs.cq1 = s.cur.qs.cq1 ∧ t.cur.qs.q = s.cur.qs.q))
    ∧ (s.admits (.xsig a b) →
        ((2 ^ 56 ≤ (s.g a).toNat ∨ s.g b = 0 ∨ 2 ^ 16 ≤ (s.g b).toNat) → exec (.xsig a b) s = .next (s.scalarTrap 0x01 (Instr.xsig a b).word))
        ∧ ((s.g a).toNat < 2 ^ 56 → s.g b ≠ 0 → (s.g b).toNat < 2 ^ 16 → s.cur.qs.xq.length < Config.queueDepth → ∃ t, exec (.xsig a b) s = .next t
            ∧ goesOn s t ∧ t.cur.qs.xq = s.cur.qs.xq ++ [⟨.signal, (s.g a).setWidth 56, 0, (s.g b).toNat, s.cur.base.level, 0, s.cur.qs.issued, s.cur.qs.fenceX, none, none⟩]))

/-! ### Waiting, barriers, messages, tokens, the end of a hart -/

/-- WAIT and the barriers complete (R157, R401, R402): WAIT clears and gives the latched bits of its mask, sleeps without one, and takes Remote
Fault with EVR where MFAULT stands outside its mask, also when that comes while it sleeps (a reading, log 32); BARA arrives and gives its episode, BARW and BARJ end on a released episode and sleep
before, BARL leaves; without a gang they are Illegal. While the sideband to the gang's home engine is down, they wait and a BARL is not heard
(R31: a reading, log 33). In a gang of another package the home engine there releases the episodes (R41). A FENCE only goes on: accesses are
performed in order (R318, log 5). -/
def Obligations.WaitsAndBarriers : Prop :=
  (∀ (d : Gpr) (m : BitVec 6) (s : State), s.admits (.wait d m) → let e := s.cur.ev.evl
    (e.getLsbD 1 = true → m.getLsbD 1 = false → exec (.wait d m) s = .next (s.scalarTrap 0x0C s.cur.ev.evr))
    ∧ ((e.getLsbD 1 = false ∨ m.getLsbD 1 = true) → e &&& m = 0 → ∃ t, exec (.wait d m) s = .next t ∧ t.cur.wait.stall = some .asleep
        ∧ t.pc = s.pc ∧ t.cur.ev = s.cur.ev ∧ ∀ r, t.g r = s.g r)
    ∧ ((e.getLsbD 1 = false ∨ m.getLsbD 1 = true) → e &&& m ≠ 0 → ∃ t, exec (.wait d m) s = .next t ∧ t.cur.ev = { s.cur.ev with evl := e &&& ~~~m }
        ∧ t.g d = (if d = 0 then 0 else (e &&& m).setWidth 64) ∧ s.keepsRegs t d ∧ t.pc = s.pc + 4 ∧ t.store = s.store ∧ t.cur.vec = s.cur.vec
        ∧ t.cur.fp = s.cur.fp))
  ∧ (∀ (d a : Gpr) (i : BitVec 3) (s : State), s.gangOf i = none → ∀ x ∈ [Instr.bara d i, .barw a i, .barj d i, .barl i], s.admits x →
      exec x s = .next (s.scalarTrap 0x01 x.word))
  ∧ (∀ (d a : Gpr) (i : BitVec 3) (s : State) (r : Run), s.gangOf i = some r → r.waitsCommit s.cur = false → s.joined r.home s.cur.id.die = true →
      Table.risingFrom 0 (r.bar i).arrived →
      let b := r.bar i
      let h := s.cur.place.hix.toNat
      let goesOn : State → Gpr → Prop := fun t d => s.keepsRegs t d ∧ t.pc = s.pc + 4 ∧ t.store = s.store ∧ t.cur.vec = s.cur.vec ∧ t.cur.fp = s.cur.fp
      let released : BitVec 32 → Nat → Prop := fun x e => 1 ≤ (x.toNat + 2 ^ 32 - e % 2 ^ 32) % 2 ^ 32 ∧ (x.toNat + 2 ^ 32 - e % 2 ^ 32) % 2 ^ 32 ≤ 2 ^ 31
      let count' : Nat → BitVec 32 := fun m => if m = h then b.count h + 1 else b.count m
      let last := (∀ m < r.gsize, m ∈ b.left ∨ count' m ≠ b.r) ∧ ∃ m < r.gsize, m ∉ b.left
      let arrived : State → Prop := fun t => ∃ r', t.gangOf i = some r' ∧ (∀ m, (r'.bar i).count m = count' m) ∧ (r'.bar i).left = b.left
        ∧ (last → r.origin = none → (r'.bar i).r = b.r + 1) ∧ (¬last ∨ r.origin.isSome = true → (r'.bar i).r = b.r)
      (s.admits (.bara d i) → b.count h = b.r + 1 → exec (.bara d i) s = .next (s.stalled .asleep))
      ∧ (s.admits (.bara d i) → b.count h ≠ b.r + 1 → ∃ t, exec (.bara d i) s = .next t ∧ goesOn t d ∧ arrived t
          ∧ t.g d = (if d = 0 then 0 else (b.count h).setWidth 64))
      ∧ (s.admits (.barw a i) → released b.r (s.g a).toNat → ∃ t, exec (.barw a i) s = .next t ∧ s.wentTo t (s.pc + 4))
      ∧ (s.admits (.barw a i) → ¬released b.r (s.g a).toNat → exec (.barw a i) s = .next (s.stalled .asleep))
      ∧ (∀ e, s.admits (.barj d i) → s.cur.wait.barj = some (i.toNat, e) → released b.r e → ∃ t, exec (.barj d i) s = .next t ∧ goesOn t d
          ∧ t.g d = (if d = 0 then 0 else BitVec.ofNat 64 e) ∧ t.cur.wait.barj = none)
      ∧ (s.admits (.barj d i) → s.cur.wait.barj = none → b.count h ≠ b.r + 1 →
          (last → r.origin = none → released (b.r + 1) (b.count h).toNat → ∃ t, exec (.barj d i) s = .next t ∧ goesOn t d ∧ arrived t
            ∧ t.g d = (if d = 0 then 0 else (b.count h).setWidth 64))
          ∧ (¬last ∨ r.origin.isSome = true → ¬released b.r (b.count h).toNat → ∃ t, exec (.barj d i) s = .next t ∧ arrived t ∧ t.cur.wait.stall = some .asleep
            ∧ t.cur.wait.barj = some (i.toNat, (b.count h).toNat) ∧ t.pc = s.pc ∧ ∀ r, t.g r = s.g r))
      ∧ (s.admits (.barl i) → ∃ t, exec (.barl i) s = .next t ∧ t.gangOf i = none ∧ t.pc = s.pc + 4 ∧ (∀ r, t.g r = s.g r)
          ∧ t.store = s.store ∧ t.cur.vec = s.cur.vec))
  ∧ (∀ (d a : Gpr) (i : BitVec 3) (s : State) (r : Run), s.gangOf i = some r → r.waitsCommit s.cur = false → s.joined r.home s.cur.id.die = false →
      (∀ x ∈ [Instr.bara d i, .barw a i, .barj d i], s.admits x → exec x s = .next (s.stalled .asleep))
      ∧ (s.admits (.barl i) → ∃ t, exec (.barl i) s = .next t ∧ s.wentTo t (s.pc + 4)))
  ∧ ∀ (c : BitVec 3) (k : BitVec 4) (s : State), s.admits (.fence c k) → ∃ t, exec (.fence c k) s = .next t ∧ s.wentTo t (s.pc + 4)

/-- MSG, MRET, TOKEN, TEXIT and TFAIL complete (R81, R150-R153, R403-R405). MSG sends its words to the target's core and counts an awaited
reply; MRET replies, sends the token asked for and clears slot 7; TOKEN sends its tokens to a word that the hart may write; TEXIT, once its
strip has committed, and TFAIL, whose strip is dropped, end the hart, which then waits for its queues; an open matrix session is closed as
by MEND before the hart leaves its slot (R369, R370, R405); a TFAIL's CODE is g(A)'s low 16 bits,
its REASON 1 at user level and 2 above.
EPC and TVAL of a TFAIL in a trap handler are a reading (log 27), so is what fills a message queue (log 32). -/
def Obligations.MessagesTokensAndEnds : Prop :=
  ∀ (a b : Gpr) (s : State),
    (∀ x r : BitVec 1, s.admits (.msg a b x r) → s.atRest →
      let w := (s.g a).toNat
      let k : CoreId := ⟨w % 4, w / 4 % 16, w / 64 % 16⟩
      ((w / 2 ^ 10 % 2 ^ 6 ≠ 0 ∨ 2 ^ 24 ≤ w) → exec (.msg a b x r) s = .next (s.scalarTrap 0x01 (Instr.msg a b x r).word))
      ∧ (w / 2 ^ 10 % 2 ^ 6 = 0 → w < 2 ^ 24 → (r = 1 → s.cur.ev.out < 8) → (s.core k).queue.length + (s.core k).wire.length < Config.queueDepth →
          ∃ t m, exec (.msg a b x r) s = .next t ∧ (t.core k).wire = (s.core k).wire ++ [m] ∧ (t.core k).queue = (s.core k).queue
            ∧ m.hnd.toNat = w / 2 ^ 16 ∧ m.reply = decide (r = 1) ∧ m.tok = decide (x = 1) ∧ m.sender = s.cur.id ∧ m.uid = s.cur.uid
            ∧ m.sup = decide (s.cur.base.level = .supervisor) ∧ m.kslot = s.cur.base.key ∧ m.tokaddr = s.g b
            ∧ (∀ j : Fin 6, m.p[j] = s.g (b + BitVec.ofNat 5 (j.val + 1)))
            ∧ t.cur.ev = { s.cur.ev with out := s.cur.ev.out + r.toNat } ∧ t.pc = s.pc + 4 ∧ (∀ r, t.g r = s.g r) ∧ t.store = s.store
            ∧ t.cur.vec = s.cur.vec)
      ∧ (w / 2 ^ 10 % 2 ^ 6 = 0 → w < 2 ^ 24 → r = 1 → 8 ≤ s.cur.ev.out → ∃ t, exec (.msg a b x r) s = .next t
          ∧ t.cur.wait.stall = some .message ∧ t.pc = s.pc ∧ t.cores = s.cores))
    ∧ (s.admits (.mret a) → s.cur.handler = none → exec (.mret a) s = .next (s.scalarTrap 0x01 (Instr.mret a).word))
    ∧ (∀ h, s.admits (.mret a) → s.cur.handler = some h → ∀ s1 tokens, (h.msg.tok = false ∧ s1 = s ∧ tokens = []
          ∨ h.msg.tok = true ∧ ∃ p, tokenSpot s s.cur.cx h.msg.tokaddr = .ok p s1 ∧ tokens = [⟨s.cur.id.die, p.loc, 1⟩]) →
        ∃ t, exec (.mret a) s = .next t ∧ t.cur = s.cur.cleared ∧ t.store = s1.store ∧ t.others = s1.others
          ∧ t.engines.tokens = s.engines.tokens ++ tokens
          ∧ t.replies = s.replies ++ (if h.msg.reply then [⟨h.msg.uid, s.g a, false, true, s.cur.id.die⟩] else []))
    ∧ (s.admits (.token a b) →
        ((s.g b = 0 ∨ 2 ^ 16 ≤ (s.g b).toNat) → exec (.token a b) s = .next (s.scalarTrap 0x01 (Instr.token a b).word))
        ∧ (s.g b ≠ 0 → (s.g b).toNat < 2 ^ 16 → (s.g a).toNat % 8 ≠ 0 → exec (.token a b) s = .next (s.scalarTrap 0x04 (s.g a)))
        ∧ (∀ p s1, s.g b ≠ 0 → (s.g b).toNat < 2 ^ 16 → tokenSpot s s.cur.cx (s.g a) = .ok p s1 → ∃ t, exec (.token a b) s = .next t
            ∧ t.engines.tokens = s.engines.tokens ++ [⟨s.cur.id.die, p.loc, (s.g b).toNat⟩] ∧ t.pc = s.pc + 4 ∧ (∀ r, t.g r = s.g r)
            ∧ t.store = s1.store ∧ t.cur.vec = s.cur.vec ∧ t.cur.fp = s.cur.fp))
    ∧ (∀ s1, s.admits .texit → s.cur.vec.queue = [] → s.commit = .done s1 → ∃ t, exec .texit s = .next t ∧ t.cur.occ = .retiring true
        ∧ t.cur.lease.state = .none ∧ t.cur.lease.pods = [] ∧ t.cur.vec.strip = none ∧ t.cur.vec.session = s1.cur.vec.session
        ∧ t.cur.base = s1.cur.base ∧ t.cur.qs = s1.cur.qs ∧ (s1.cur.lease.area = none → t.store = s1.store)
        ∧ (∀ r, s1.runOf s1.cur = some r → s1.joined r.home s1.cur.id.die = true →
            ∃ r', t.runOf t.cur = some r' ∧ ∀ i, s1.cur.place.hix.toNat ∈ (r'.bar i).left)
        ∧ (∀ u, t.closeSession = .ok () u → t.cur.qs.empty = true → exec (.hartRetire t.cur.id) t = engineEvent t (t.cur.uid * 4) (u.leaveSlot true)
            ∧ u.cur.vec.session = none ∧ u.cur.vec.marrow = [] ∧ (t.cur.vec.session.isSome = true → ∀ n, u.cur.tile n = Tile.undef)))
    ∧ (s.admits (.tfail a) → ∃ f, exec (.tfail a) s = .next (s.hartFails f) ∧ f.code = (s.g a).toNat % 2 ^ 16
        ∧ f.reason = (if s.cur.base.level = .user then 1 else 2) ∧ f.fhix = s.cur.place.hix.toNat ∧ f.loc = some s.cur.id
        ∧ ((s.cur.base.level = .user ∨ s.cur.trap.depth = 0) → f.epc = s.pc ∧ f.tval = 0))
    ∧ (s.admits (.tfail a) → s.runOf s.cur = none → ∃ t, exec (.tfail a) s = .next t ∧ t.cur.occ = .retiring false ∧ t.cur.lease.state = .none
        ∧ t.cur.vec.strip = none ∧ t.cur.vec.queue = [] ∧ t.cur.qs = s.cur.qs ∧ (s.cur.lease.area = none → t.store = s.store)
        ∧ t.engines = s.engines)

/-! ### Events -/

/-- The events at one hart take place when they can: a block that has ended leaves the queue (R158); a pending vector trap, a held event and a
breakpoint are taken (R226, R268); a residue mismatch aborts the strip and replays it (R231); a cancel request lands at a boundary and, after
its timeout, stops the lease (R108); a trap whose frame's line is locked waits (R361); a hart whose queues are empty
leaves its slot (R405), and where it left by TEXIT its bit in the done-hart mask is set and, unless its report is lost with a link, HDONE counts
one more (R99, R31); the lock of R361 is granted in order and ends after
65,536 cycles. Each event brings the slot that it names into focus.
That a report may be lost (log 33) and what clears when a hart leaves are readings (log 21), so is what the end of the lock leaves (log 28). -/
def Obligations.HartEvents : Prop :=
  ∀ (h : HartId) (s : State), let u := s.focus h
    let takes : Instr → State → Prop := fun i t => (t.cur.wait.stall = none → exec i s = .next t)
      ∧ (t.cur.wait.stall ≠ none → ∃ w, exec i s = .next w ∧ w.cur.wait.stall = some .home ∧ w.cur.trap = u.cur.trap ∧ w.pc = u.pc ∧ ∀ r, w.g r = u.g r)
    (∀ b bs, u.cur.stopped = false → u.cur.vec.queue = b :: bs → b.ended = true → ∃ t, exec (.blockFinish h) s = .next t ∧ t.cur.vec.queue = bs
      ∧ t.cur.vec.status = some false ∧ t.cur.vec.regs = u.cur.vec.regs ∧ t.cur.vec.strip = u.cur.vec.strip ∧ t.cur.base = u.cur.base ∧ t.store = s.store)
    ∧ (∀ v, u.cur.trap.vtrap = some v → u.cur.trap.depth = 0 → u.cur.atIssue u.cycle = true →
        takes (.vectorTrapTake h) (({ u with cur := { u.cur with trap := { u.cur.trap with vtrap := none } } } : State).take v.cause.toNat v.tval v.epc u.pc true))
    ∧ (∀ c x es, u.cur.trap.held = (c, x) :: es → u.cur.trap.vtrap = none → u.cur.trap.depth = 0 → u.cur.atIssue u.cycle = true →
        takes (.asyncEventTake h) (({ u with cur := { u.cur with trap := { u.cur.trap with held := es } } } : State).take c.toNat x u.pc u.pc false))
    ∧ (∀ k, u.cur.trap.afterTret = false → u.cur.trap.first = false → u.cur.atIssue u.cycle = true → u.cur.breakpoint false u.pc = some k →
        exec (.breakpoint h) s = .next (u.scalarTrap 0x09 (BitVec.ofNat 64 k)))
    ∧ (∀ k x, u.cur.breakpoint false u.pc = none → u.cur.vectorBreak = some k → u.cur.vec.strip = some x → (u.cur.vec.session = none ∨ x.ext = []) →
        ∃ t v, exec (.breakpoint h) s = .next t ∧ t.cur.trap.vtrap = some v ∧ v.cause = 0x09 ∧ v.tval = BitVec.ofNat 64 k ∧ v.epc = u.cur.cvp
          ∧ t.cur.trap.bpctl = true ∧ t.cur.vec.regs = x.opening)
    ∧ (∀ ps x, u.cur.vec.strip = some x → x.aborted = false → u.cur.vec.queue ≠ [] → u.cur.stopped = false → u.cur.lease.state = .held →
        u.roundHolds u.cur = false → (u.cur.vec.session = none ∨ x.ext = []) →
        ∃ t y, exec (.residueMismatch h ps) s = .next t ∧ t.cur.vec.regs = x.opening ∧ t.cur.vec.resrep = satAdd u.cur.vec.resrep 1
          ∧ t.cur.vec.strip = some y ∧ y.aborted = false ∧ y.stores = [] ∧ y.replay = x.replay
          ∧ t.cur.vec.queue.map (fun b => (b.addr, b.head, b.regs)) = x.replay.map fun r => (r.addr, r.start, r.regs))
    ∧ (∀ e ∈ [Instr.vwaitvWake h, .vwaitvTimeout h], ∀ b bs f d, u.cur.vec.queue = b :: bs → b.nextInstr = some (.vwaitv f) → u.vectorOk (.vwaitv f) →
        u.cur.wait.deadline = some d → (e = .vwaitvWake h → u.cur.wait.woken = true) → (e = .vwaitvTimeout h → d ≤ u.cycle) →
        let m := u.vmem f (bitsOf f.fnN 2 2 = 1) true
        let r := m.round u.cur.vectorCx (decide (d ≤ u.cycle)) u.cur.wait.watch (u.onCur fun x => { x with wait := { x.wait with woken := false } })
        (r.cur.wait.watch ≠ [] → u.cycle < d → exec e s = .next r)
        ∧ ((r.cur.wait.watch = [] ∨ d ≤ u.cycle) → r.cur.wait.bad = none → ∃ t, exec e s = .next t ∧ t.cur.wait.deadline = none ∧ t.store = r.store
            ∧ (∀ n, n < m.g.vl → ((t.m f.d.toNat).testBit n = true ↔ ∃ w ∈ r.cur.wait.watch, w.elem = n)) ∧ ∃ y, t.cur.vec.strip = some y ∧ y.stores = []))
    ∧ (u.cur.cancelReady u.cycle = true → ∃ t, exec (.cancelLand h) s = .next t ∧ t.cur.occ = .cancelled ∧ t.cur.lease.state = .none ∧ t.cur.lease.pods = []
        ∧ t.cur.vec.strip = none ∧ t.cur.vec.queue = [] ∧ t.cur.ev.out = 0 ∧ t.cur.trap.held = [] ∧ t.cur.trap.vtrap = none ∧ t.cur.base = u.cur.base
        ∧ t.cur.qs = u.cur.qs ∧ (u.cur.lease.area = none → t.store.bytes = s.store.bytes))
    ∧ (∀ c, u.cur.wait.cancel = some c → c + Config.boundaryLimit ≤ u.cycle → u.cur.atBoundary = false → u.cur.lease.state = .held → u.cur.lease.susp = none →
        u.cur.lease.draining = none → ∃ t, exec (.cancelTimeout h) s = .next t ∧ t.cur.lease.susp = some ⟨3, true, u.cur.lease.pods.length, none⟩
          ∧ t.cur.links = [] ∧ t.cur.vec = u.cur.vec ∧ t.cur.base = u.cur.base ∧ t.store = s.store)
    ∧ ((u.cur.occ = .cancelled ∨ ∃ e, u.cur.occ = .retiring e) → u.cur.qs.cq0 = [] → u.cur.qs.cq1 = [] → u.cur.qs.xq = [] → u.cur.vec.session = none →
        (u.runOf u.cur = none → ∃ t, exec (.hartRetire h) s = .next t ∧ t.cur = u.cur.cleared ∧ t.store = s.store ∧ t.engines = s.engines)
        ∧ (∀ r, u.runOf u.cur = some r → u.cur.occ = .cancelled → (r.live.filter (· ≠ u.cur.uid) ≠ [] ∨ r.toStart ≠ []) → ∃ t r',
            exec (.hartRetire h) s = .next t ∧ t.cur = u.cur.cleared ∧ t.store = s.store
              ∧ t.engines.runs.find? (fun x => x.id = r.id) = some r' ∧ r'.live = r.live.filter (· ≠ u.cur.uid))
        ∧ (∀ r, u.runOf u.cur = some r → u.cur.occ = .retiring true → r.waitsCommit u.cur = false → r.state ≠ .aborted →
          (∀ v r1, u.setDone r u.cur = .ok () v → ({ v with cur := v.cur.cleared } : State).runOf u.cur = some r1 →
            (r1.live.filter (· ≠ u.cur.uid) ≠ [] ∨ r1.toStart ≠ []) → ∃ t r', exec (.hartRetire h) s = .next t ∧ t.cur = v.cur.cleared
              ∧ t.store = v.store ∧ t.engines.runs.find? (fun x => x.id = r1.id) = some r' ∧ r'.live = r1.live.filter (· ≠ u.cur.uid))
          ∧ (∀ a p s1, u.attachedAt r.graph = some a → u.graphLocked a = false →
            let hix := u.cur.place.hix.toNat
            let mask := u.gread a (nodeOff r.node 64) 8
            let va : Word := BitVec.ofNat 64 (mask + 8 * (hix / 64))
            let bit := 2 ^ (hix % 64)
            va.toNat % 8 = 0 → resolve (u.gaudit a (nodeOff r.node 64) 8) a.cx .readWrite va = .ok p s1 → spaceOf p.loc ≠ .host →
            s1.check p 8 true = none → s1.writeLocked a.cx va p = false →
            let s2 := s1.setAD a.cx.root va p true
            s2.syncHit p.loc 8 = [] → s2.wild p 8 false = [] → s.memOk →
            ∃ w : State, w.store.bytes.readN p.loc 8 = s2.peek p 8 ||| bit ∧ w.cur.base = u.cur.base
              ∧ (∀ x, (x < p.loc ∨ p.loc + 8 ≤ x) → w.store.bytes.read x = s2.store.bytes.read x)
              ∧ (u.joined r.home u.cur.id.die = false → u.setDone r u.cur = .ok () w)
              ∧ (u.joined r.home u.cur.id.die = true → u.setDone r u.cur =
                  (maskFull (w.gwrite a (nodeOff r.node 92) 4 (w.gread a (nodeOff r.node 92) 4 + 1)) a mask 0 r.gsize ((r.gsize + 63) / 64)).bind
                    fun full v => if full then (v.gaudit a 8 2).runDone a r else .ok () v))))
    ∧ (s.lockOver = true → ∀ w ws, s.store.lockQueue.filter s.wantsLock = w :: ws → ∃ t, exec .lockGrant s = .next t
        ∧ t.store = { s.store with lock := some (w, [], s.cycle), lockQueue := ws } ∧ t.cur = s.cur)
    ∧ (s.lockOver = true → s.store.lockQueue.filter s.wantsLock = [] → ∃ t, exec .lockGrant s = .next t
        ∧ t.store = { s.store with lock := none, lockQueue := [] } ∧ t.cur = s.cur)
    ∧ (∀ w ls c, s.store.lock = some (w, ls, c) → c + 65536 ≤ s.cycle → ∃ t, exec .lockTimeout s = .next t
        ∧ t.store = { s.store with lock := none } ∧ t.cur = s.cur)

/-- The built-in handlers of R154, with their numbers and what each does: the reply, or why it fails. -/
def Sys2Proof.Machine.builtinRows (k : CoreId) : List (Instr × Nat × (Message → Ctx → State → Res Word)) :=
  let aligned : Message → State → Res Word → Res Word := fun m s r => if (m.pay 0).toNat % 8 ≠ 0 then .trap 0x04 (m.pay 0) s else r
  let update : Order → (Message → Nat → Option Nat) → Message → Ctx → State → Res Word := fun o f m cx s =>
    aligned m s ((updateMem s cx (m.pay 0) 8 o (f m)).bind fun v s => .ok (BitVec.ofNat 64 v) s)
  [(.ping k, 0, fun _ _ s => .ok 0 s),
   (.rd k, 1, fun m cx s => aligned m s ((readMem s cx (m.pay 0) 8 .plain).bind fun v s => .ok (BitVec.ofNat 64 v) s)),
   (.wr k, 2, fun m cx s => aligned m s ((writeMem s cx (m.pay 0) 8 (m.pay 1).toNat .plain).bind fun _ s => .ok 0 s)),
   (.aadd k, 3, update .plain fun m old => some ((old + (m.pay 1).toNat) % 2 ^ 64)), (.swap k, 4, update .plain fun m _ => some (m.pay 1).toNat),
   (.casBuiltin k, 5, update Order.plain.forCas fun m old => if old = (m.pay 1).toNat then some (m.pay 2).toNat else none),
   (.copy k, 6, fun m cx s => if (m.pay 2).toNat = 0 ∨ 4096 < (m.pay 2).toNat then .trap 0x04 (m.pay 2) s
      else (copyBytes s cx (m.pay 0) (m.pay 1) (m.pay 2).toNat).bind fun _ s => .ok (m.pay 2) s),
   (.swbump k, 7, fun m cx s => (syncArrive s cx (m.pay 0) (m.pay 1).toNat).bind fun _ s => .ok 0 s)]

/-- Messages and queue entries are carried out (R151-R156, R396, R397, R400): arrival, the start and the overrun of a handler, the built-in
handlers with their replies and failures, EVSET's latch, the arrival of a reply, the first entries of the copy and fabric queues. A handler
is ready in the second cycle after its start, and a read of its entry that waits is made again (R151, R153). What crosses a link that holds its
traffic waits (R32, R36).
A transfer with another package sends its request on a live plane and waits 1 ms for the response, after which the package is lost (R37, R38,
R43).
Messages on their way, and entries that stop and go on, are readings (log 32); what a remote package replies is an operand (log 17). -/
def Obligations.MessageAndQueueEvents : Prop :=
  (∀ (k : CoreId) (m : Message) (ms : List Message) (s : State), (s.core k).wire = m :: ms →
    (s.trafficHeld m.sender.die k.die = true → exec (.messageArrive k) s = .next s)
    ∧ (s.trafficHeld m.sender.die k.die = false → ∃ t, exec (.messageArrive k) s = .next t
      ∧ (t.core k).wire = ms ∧ (t.core k).queue = (s.core k).queue ++ [m] ∧ t.cur = s.cur ∧ t.store = s.store))
  ∧ (∀ (k : CoreId) (m : Message) (ms : List Message) (s : State), (s.core k).queue = m :: ms → (s.hart k.messageSlot).occ = .empty →
      s.handlerAllowed k = true → s.hardwareHeld k.die (contextLoc k.messageSlot) 128 = false →
      (∀ e s1, handlerEntry m k s = .ok e s1 → ∃ t, exec (.handlerStart k) s = .next t ∧ (t.core k).queue = ms
        ∧ let x := t.hart k.messageSlot
          x.occ = .running ∧ x.handler = some ⟨m, 0, false, s1.cycle + 2⟩ ∧ x.base.pc = e ∧ x.base.key = m.kslot ∧ x.base.ptroot = m.ptroot
          ∧ x.base.level = (if m.sup then .supervisor else .user) ∧ (∀ i : Fin 6, x.gr (BitVec.ofNat 5 (i.val + 1)) = m.p[i]) ∧ x.gr 7 = m.word0 ∧ x.gr 8 = m.tokaddr)
      ∧ (∀ c v s1, handlerEntry m k s = .trap c v s1 → ∃ t, exec (.handlerStart k) s = .next t ∧ (t.core k).queue = ms
          ∧ t.replies = s1.replies ++ [⟨m.uid, BitVec.ofNat 64 (c % 256 + m.hnd.toNat * 256), true, m.reply, k.die⟩])
      ∧ (∀ w s1, handlerEntry m k s = .stall w s1 → ∃ t, exec (.handlerStart k) s = .next t ∧ (t.core k).queue = ms
          ∧ let x := t.hart k.messageSlot
            x.occ = .running ∧ x.handler = some ⟨m, 0, true, s.cycle + 2⟩ ∧ x.base.key = m.kslot ∧ (∀ i : Fin 6, x.gr (BitVec.ofNat 5 (i.val + 1)) = m.p[i])))
  ∧ (∀ (k : CoreId) (h : Handler) (e : Word) (s s1 : State), (s.hart k.messageSlot).handler = some h → handlerEntry h.msg k s = .ok e s1 →
      let x := (s.readEntry k h.msg).hart k.messageSlot
      x.base.pc = e ∧ x.handler = some { h with pending := false })
  ∧ (∀ (k : CoreId) (h : Handler) (s : State), (s.focus k.messageSlot).cur.handler = some h → 256 ≤ h.issued → ∃ t, exec (.handlerOverrun k) s = .next t
      ∧ t.cur.occ = .empty ∧ t.cur.handler = none ∧ t.replies = s.replies ++ [⟨h.msg.uid, BitVec.ofNat 64 (0x0B + h.msg.hnd.toNat * 256), true, h.msg.reply, k.die⟩])
  ∧ (∀ (k : CoreId) (h : Handler) (s : State), let u := s.focus k.messageSlot
      u.cur.handler = some h →
      (∀ p ∈ builtinRows k, h.msg.hnd.toNat = p.2.1 → ∀ r, p.2.2 h.msg { u.cur.cx with keep := true } u = r →
        (∀ v s1, r = .ok v s1 → h.msg.tok = false → ∃ t, exec p.1 s = .next t ∧ t.cur.occ = .empty ∧ t.cur.handler = none ∧ t.store = s1.store
          ∧ t.replies = s1.replies ++ (if h.msg.reply then [⟨h.msg.uid, v, false, true, k.die⟩] else []))
        ∧ (∀ v s1 p' s2, r = .ok v s1 → h.msg.tok = true → tokenSpot s1 s1.cur.cx h.msg.tokaddr = .ok p' s2 → ∃ t, exec p.1 s = .next t
            ∧ t.cur.occ = .empty ∧ t.engines.tokens = s2.engines.tokens ++ [⟨s2.cur.id.die, p'.loc, 1⟩])
        ∧ (∀ c v s1, r = .trap c v s1 → s1.cur.handler = some h → ∃ t, exec p.1 s = .next t ∧ t.cur.occ = .empty
            ∧ t.replies = s1.replies ++ [⟨h.msg.uid, BitVec.ofNat 64 (c % 256 + h.msg.hnd.toNat * 256), true, h.msg.reply, k.die⟩]))
      ∧ (h.msg.hnd = 8 → h.msg.tok = false → let n := (h.msg.pay 0).toNat % 8; let g : HartId := ⟨k.die, k.clu, k.core, n⟩
          ∃ t, exec (.evset k) s = .next t ∧ t.cur.occ = .empty
            ∧ (n ≠ 7 → (u.hart g).occ ≠ .empty → (u.hart g).base.key = h.msg.kslot → (t.hart g).ev.evl = (u.hart g).ev.evl ||| 32)
            ∧ t.replies = s.replies ++ (if h.msg.reply then [⟨h.msg.uid, 0, false, true, k.die⟩] else [])))
  ∧ (∀ (h : HartId) (r : Reply) (rs : List Reply) (s : State), let u := s.focus h
      s.replies = r :: rs → r.uid = u.cur.uid → u.cur.occ ≠ .empty → u.cur.occ ≠ .cancelled → s.trafficHeld r.die h.die = false → ∃ t, exec (.replyArrive h) s = .next t ∧ t.replies = rs
        ∧ t.cur.ev = { u.cur.ev with evr := r.value, out := if r.awaited then u.cur.ev.out - 1 else u.cur.ev.out, evl := u.cur.ev.evl ||| (if r.failed then 2 else 1), recent := u.cur.ev.recent ||| (if r.failed then 2 else 1) })
  ∧ (∀ (h : HartId) (k : Bool) (e : CopyEntry) (es : List CopyEntry) (s : State), let u := s.focus h
      let n := if k then 2 else 1
      let queue : State → List CopyEntry := fun t => if k then t.cur.qs.cq1 else t.cur.qs.cq0
      let bit : BitVec 6 := if k then 8 else 4
      queue u = e :: es → u.cur.qs.ready e.after = true →
      (∀ e' s1, e.run (u.cur.queueCx n e.seq e.level) e.n u = (e', .ok () s1) → ∃ t, exec (.copyEntry h k) s = .next t ∧ queue t = es ∧ t.store = s1.store
        ∧ t.cur.ev.evl = (if es = [] then s1.cur.ev.evl ||| bit else s1.cur.ev.evl) ∧ t.cur.ev.evr = s1.cur.ev.evr)
      ∧ (∀ e' w s1, e.run (u.cur.queueCx n e.seq e.level) e.n u = (e', .stall w s1) → ∃ t, exec (.copyEntry h k) s = .next t ∧ queue t = e' :: es ∧ t.store = s1.store)
      ∧ (∀ e' c v s1, e.run (u.cur.queueCx n e.seq e.level) e.n u = (e', .trap c v s1) → ∃ t, exec (.copyEntry h k) s = .next t ∧ queue t = [] ∧ t.store = s1.store
          ∧ t.cur.ev.evr = BitVec.ofNat 64 (c % 256 + n * 2 ^ 16 + e'.done % 2 ^ 32 * 2 ^ 32) ∧ t.cur.ev.evl = s1.cur.ev.evl ||| 2 ||| bit))
  ∧ (∀ (h : HartId) (reply : RemoteReply) (e : FabricEntry) (es : List FabricEntry) (s : State), let u := s.focus h
      let cx := u.cur.queueCx 3 e.seq e.level
      let ends : FabricEntry × Res Unit → Prop := fun r =>
        (∀ s1, r.2 = .ok () s1 → ∃ t, exec (.fabricEntry h reply) s = .next t ∧ t.cur.qs.xq = es ∧ t.store = s1.store
          ∧ t.cur.ev.evl = (if es = [] then s1.cur.ev.evl ||| 16 else s1.cur.ev.evl) ∧ t.cur.ev.evr = s1.cur.ev.evr)
        ∧ (∀ w s1, r.2 = .stall w s1 → ∃ t, exec (.fabricEntry h reply) s = .next t ∧ t.cur.qs.xq = r.1 :: es ∧ t.store = s1.store)
        ∧ (∀ c v s1, r.2 = .trap c v s1 → ∃ t, exec (.fabricEntry h reply) s = .next t ∧ t.cur.qs.xq = [] ∧ t.store = s1.store
            ∧ t.cur.ev.evr = BitVec.ofNat 64 (c % 256 + 3 * 2 ^ 16 + r.1.done % 2 ^ 32 * 2 ^ 32) ∧ t.cur.ev.evl = s1.cur.ev.evl ||| 2 ||| 16)
      u.cur.qs.xq = e :: es → u.cur.qs.ready e.after = true →
      (e.remote.toNat / 2 ^ 44 = s.pkgid.toNat → e.kind = .signal → ends (e, physTokens u cx e.here (e.remote.toNat % 2 ^ 44) e.n))
      ∧ (e.remote.toNat / 2 ^ 44 = s.pkgid.toNat → e.kind ≠ .signal → ends (e.here_ cx e.n u))
      ∧ (e.remote.toNat / 2 ^ 44 ≠ s.pkgid.toNat →
          (e.issued = none → u.livePlanes ≠ [] → ∃ t, exec (.fabricEntry h reply) s = .next t ∧ t.cur.qs.xq = { e with issued := some s.cycle } :: es
            ∧ t.store = s.store)
          ∧ (e.issued = none → u.livePlanes = [] → ends (e, .trap 0x0C e.here u))
          ∧ (∀ c, e.issued = some c → e.answer = none → c + 2400000 ≤ s.cycle → ∀ v, u.packageLost (e.remote.toNat / 2 ^ 44) = .ok () v →
              ends (e, .trap 0x0C e.here ((v.focus u.cur.id).dropStream u.cur.uid (e.remote.toNat / 2 ^ 44))))
          ∧ (∀ c r, e.issued = some c → (e.answer = none → s.cycle < c + 2400000) → e.remotely cx (e.answer.getD reply) u = some r →
              ends ({ r.1 with answer := some (e.answer.getD reply) }, r.2))))

/-- The lease events take place when they can (R23-R26, R100, R101, R130-R132, R232, R233, R238). A round grants a lone request that fits and
makes one that does not fit the head; the head's deadline revokes a lease of lower priority; a revocation stops the lease clean at a boundary, after 2,048 cycles in
the middle of its strip, and is spilled; a pre-emption frees the slot and restarts in another; a hart moves to the die named at a boundary, or is
to move there; a Pod is retired at once when no lease holds it, and before the grants of a round of the same cycle, which is run again on what the
retirement leaves (R26).
The times of rounds (log 39), the way in which a retirement comes first (log 14), the free choice of a slot (log 24), merged revocations and entry times (log 31) and the spilled images (log 19) are the model's. -/
def Obligations.LeaseEvents : Prop :=
  (∀ (d c : Nat) (s : State), d < 4 → c < 16 →
    let u := (s.retireAll.flow (64 - s.cycle % 64)).retireAll
    let l := u.cur.lease
    u.halted = false → s.retireAll.arbiters ≠ [] → u.arbiters = [(d, c)] → l.state = .wait → l.need ≤ (u.livePods d c).length →
    (u.leasesAt d c = [u.cur] → u.fits d c l = true → (u.assignArea u.cur.id).isSome = true → ∃ t, exec (.arbiterRound d c) s = .next t
        ∧ t.cur.lease.state = .held ∧ t.cur.lease.pods.length = l.need ∧ t.cur.lease.force = l.req ∧ t.cur.lease.granted = t.cycle ∧ t.cycle % 64 = 0)
    ∧ (u.cur ∈ u.leasesAt d c → (∀ x ∈ u.leasesAt d c, x = u.cur ∨ x.lease.state = .held ∧ x.lease.raised = false) → u.fits d c l = false → ∃ t,
        exec (.arbiterRound d c) s = .next t ∧ t.cur.lease.state = .wait ∧ (t.cluster d c).head.map Prod.fst = some u.cur.uid))
  ∧ (∀ (d c who t0 : Nat) (s : State) (x : Hart), (s.cluster d c).head = some (who, t0) → s.byUid who = some x → t0 + 2048 ≤ s.cycle →
      ((s.leasesAt d c).filter fun y => y.lease.state = .held && y.lease.draining.isNone && y.lease.susp.isNone
        && y.lease.pri < x.lease.effPri s.cycle && y.uid ≠ who) = [s.cur] →
      0 < s.podShortfall d c x.lease → s.cur.lease.pods ≠ [] → ∃ t, exec (.revocationDeadline d c) s = .next t
        ∧ (s.cur.atBoundary = true → t.cur.lease.susp = some ⟨4, false, s.cur.lease.pods.length, none⟩)
        ∧ (s.cur.atBoundary = false → t.cur.lease.draining = some (s.cycle, 4)))
  ∧ (∀ (h : HartId) (s : State), let u := s.focus h
      (∀ t0 c, u.cur.lease.draining = some (t0, c) → u.cur.lease.state = .held → (u.cur.atBoundary = true ∨ t0 + Config.boundaryLimit ≤ u.cycle) →
        ∃ t, exec (.drainTimeout h) s = .next t ∧ t.cur.lease.draining = none ∧ t.store = s.store ∧ t.cur.vec = u.cur.vec
          ∧ t.cur.lease.susp = some ⟨c, !u.cur.atBoundary, u.cur.lease.pods.length, none⟩)
      ∧ (∀ v, u.cur.lease.susp = some v → u.cur.lease.state = .held → s.memOk → u.cur.lease.area = none ∨ (∃ i, u.cur.lease.area = some i
            ∧ u.areaOpen u.cur.id.die ((u.die u.cur.id.die).areaLoc i) (65536 + 20480 * 64 * u.cur.lease.pods.length) = true
            ∧ u.hardwareHeld u.cur.id.die ((u.die u.cur.id.die).areaLoc i) (65536 + 20480 * 64 * u.cur.lease.pods.length) = false
            ∧ (v.mid = true → u.settleMember = (u, true))) →
          ∃ t, exec (.spillDone h) s = .next t ∧ t.cur.lease.state = .suspended ∧ t.cur.lease.pods = [] ∧ t.cur.vec = u.cur.vec ∧ t.cur.base = u.cur.base
            ∧ t.cur.lease.revoke = satAdd u.cur.lease.revoke 1
            ∧ ∀ i, u.cur.lease.area = some i → t.store.bytes.readN ((u.die u.cur.id.die).areaLoc i) 8
                = (0x4C50535A + 2 ^ 32 + u.cur.lease.pods.length * 2 ^ 48 + u.cur.lease.force.sq * 2 ^ 56) % 2 ^ 64)
      ∧ (∀ s1, u.cur.occ = .preempted → u.cur.lease.state ≠ .held → u.cur.qs.cq0 = [] → u.cur.qs.cq1 = [] → u.cur.qs.xq = [] → u.cur.ev.out = 0 →
          u.cur.wait.cancel = none → u.assignArea h = some s1 → s1.areaOpen h.die ((s1.die h.die).areaLoc (s1.cur.lease.area.getD 0)) 0x10000 = true →
          s1.packFrames.hardwareHeld h.die ((s1.packFrames.die h.die).areaLoc (s1.cur.lease.area.getD 0)) 0x10000 = false →
          ∃ t y r, exec (.preemptComplete h) s = .next t ∧ t.cur.occ = .empty ∧ t.engines.parked = s.engines.parked ++ [y] ∧ y.uid = u.cur.uid
            ∧ y.base = u.cur.base ∧ y.fp = u.cur.fp ∧ y.vec = u.cur.vec ∧ t.engines.ready = s.engines.ready ++ [r] ∧ r.parked = some u.cur.uid)
      ∧ (∀ d, u.movable u.cur d = true → u.cur.atBoundary = true →
          (u.others.any fun y => y.id.die = h.die && (y.wait.move.isSome || (u.movable y d && u.movesBefore y u.cur))) = false →
          (∃ g ∈ u.moveSlots u.cur d, u.hardwareHeld g.die (contextLoc g) 128 = false) →
          ∃ t g, exec (.hartMove h d) s = .next t ∧ g.die = d ∧ g.slot < 7 ∧ (u.hart g).occ = .empty ∧ (t.hart g).uid = u.cur.uid
            ∧ (t.hart g).base = u.cur.base ∧ (t.hart g).fp = u.cur.fp ∧ (t.hart h).occ = .empty)
      ∧ (∀ d, u.movable u.cur d = true → u.cur.atBoundary = false → u.cur.wait.move = none →
          (u.others.any fun y => y.id.die = h.die && (y.wait.move.isSome || (u.movable y d && u.movesBefore y u.cur))) = false →
          ∃ t, exec (.hartMove h d) s = .next t ∧ t.cur.wait.move = some (d, s.cycle) ∧ t.cur.base = u.cur.base ∧ t.store = s.store)
      ∧ (∀ d t0, u.cur.wait.move = some (d, t0) → t0 + 2048 ≤ u.cycle → u.cur.atBoundary = false → exec (.moveTimeout h) s =
          .next { u with cur := { u.cur with wait := { u.cur.wait with move := none, stays := u.reservedSince h.die } } }))
  ∧ (∀ (d n : Nat) (s : State), let h := slotOfNumber d n
      n % 8 ≠ 7 → n < 2048 → (s.hart h).occ = .running → (s.hart h).wait.preempt = false → ∃ t, exec (.preempt d n) s = .next t
        ∧ (t.hart h).wait.preempt = true ∧ (t.hart h).base = (s.hart h).base
        ∧ ((s.hart h).lease.state = .held → (s.hart h).lease.draining = none → (s.hart h).lease.susp = none →
            ((s.hart h).atBoundary = true → (t.hart h).lease.susp = some ⟨1, false, (s.hart h).lease.pods.length, none⟩)
            ∧ ((s.hart h).atBoundary = false → (t.hart h).lease.draining = some (s.cycle, 1))))
  ∧ (∀ (d : Nat) (r : Ready) (x : Hart) (s : State), s.engines.ready = [r] → s.engines.parked = [x] → r.parked = some x.uid → x.id.die = d →
      s.engines.reserved = [] → (∃ g ∈ s.restartSlots r x, s.hardwareHeld g.die (contextLoc g) 128 = false) →
      ∃ t g, exec (.preemptRestart d) s = .next t ∧ g ∈ s.restartSlots r x ∧ (t.hart g).uid = x.uid
        ∧ (t.hart g).occ = .running ∧ (t.hart g).base = x.base ∧ (t.hart g).fp = x.fp ∧ (t.hart g).vec = x.vec ∧ (t.hart g).wait.preempt = false
        ∧ t.engines.parked = [] ∧ t.engines.ready = [])
  ∧ (∀ (d p : Nat) (s : State), p < 256 → Table.risingFrom 0 (s.die d).pods →
      let again := s.rounds.any fun m => m.die = d && m.clu = p / 16
      (again = true → (s.pod d p).live = true → exec (.podretire d p) s = .next (((s.undoRound d (p / 16)).losePod d p 4).arbiterRound d (p / 16)))
      ∧ (again = false → (s.pod d p).live = true → s.holders d p = [] → ∃ t, exec (.podretire d p) s = .next t ∧ (t.pod d p).retired = true
        ∧ (t.pod d p).cause = 4 ∧ t.store = s.store ∧ ∀ q, q ≠ p → t.pod d q = s.pod d q)
      ∧ (again = false → (s.pod d p).live = true → s.holders d p ≠ [] → ∃ t, exec (.podretire d p) s = .next t ∧ (t.pod d p).doomed = 4
        ∧ (t.pod d p).retired = false ∧ t.store = s.store)
      ∧ (∀ v : BitVec 16, again = false → ∃ t, exec (.eolWrite d p v) s = .next t ∧ (t.pod d p).eol = v ∧ t.store = s.store
          ∧ ((s.pod d p).live = true → v.toNat < (s.die d).hmargin.toNat → (t.pod d p).live = false
              ∧ (s.holders d p = [] → (t.pod d p).retired = true ∧ (t.pod d p).cause = 3))
          ∧ ((s.die d).hmargin.toNat ≤ v.toNat → (t.pod d p).live = (s.pod d p).live))
      ∧ (∀ v : BitVec 16, (∀ m ∈ s.rounds, m.die ≠ d) → ∃ t, exec (.hmarginWrite d v) s = .next t ∧ (t.die d).hmargin = v ∧ t.store = s.store
          ∧ ∀ q, (t.pod d q).live = true → v.toNat ≤ (t.pod d q).eol.toNat))

/-! ### Graph events -/

/-- The graph events take place when they can (R41, R42, R80-R87, R93-R98, R110-R112). GATTACH checks and binds, or tells the first failure and
binds nothing; GDETACH unbinds a graph at rest. A token step does what R80 says to the word; the node that it fires becomes READY. A dispatch places
a node on one die, launches it over several, leaves it where no place is free, or faults it; an old entry reserves its dies; a folded gang
starts its next hart. A launch goes through PREPARE, ACK or NACK, COMMIT, ABORT and its timeout; an ACK or NACK that comes after the deadline
changes nothing. A visit of a cancellation walk writes CURSOR, in a later cycle cancels the node, and then counts it.
Placement in vain, folded gangs, the dies of a gang, gangs over packages and failed launches are readings (log 33), so are refused engine accesses
(log 20). That a token step makes an IDLE node WAITING also at CNT 0 (R80 beside R89), the order of GATTACH's faults within the header, that
what a visit does to its node is the last event of its cycle, and that it clears DEFER, are the model's choices (log 41). -/
def Obligations.GraphEvents : Prop :=
  (∀ (addr : BitVec 56) (s : State), let a := s.readHeader addr s.cur.id.die
    let s0 := s.gaudit a 0 128
    let c := s0.headerResult a
    (c ≠ 0 → ∃ t, exec (.gattach addr) s = .next t ∧ t.cur.sel.gstat = BitVec.ofNat 32 c ∧ t.engines = s.engines ∧ t.store = s0.store)
    ∧ (∀ e i s1, c = 0 → attachNodes s0 a a.ncount 0 [] = .ok (.inl (e, i)) s1 → ∃ t, exec (.gattach addr) s = .next t
        ∧ t.cur.sel.gstat = BitVec.ofNat 32 (e + i * 65536) ∧ t.engines = s.engines ∧ t.store.bytes = s.store.bytes)
    ∧ (∀ words s1, c = 0 → attachNodes s0 a a.ncount 0 [] = .ok (.inr words) s1 → Table.risingFrom 0 s.engines.directory →
        (262144 < s.engines.directory.length + a.ncount → ∃ t, exec (.gattach addr) s = .next t ∧ t.cur.sel.gstat = 5 ∧ t.engines = s.engines
          ∧ t.store.bytes = s.store.bytes)
        ∧ (s.engines.directory.length + a.ncount ≤ 262144 → s1.graphLocked a = false → (∀ w ∈ words, s1.lockedFor a.home w 8 = false) → ∃ t, exec (.gattach addr) s = .next t ∧ t.cur.sel.gstat = 0
            ∧ t.engines.attached = s.engines.attached ++ [a] ∧ t.engines.ready = s.engines.ready
            ∧ ∀ i (h : i < words.length), Table.get noBinding t.engines.directory words[i] = (addr, i))))
  ∧ (∀ (addr : BitVec 56) (s : State),
      (s.attachedAt addr = none → ∃ t, exec (.gdetach addr) s = .next t ∧ t.cur.sel.gstat = 9 ∧ t.engines = s.engines ∧ t.store = s.store)
      ∧ (∀ a, s.attachedAt addr = some a → s.busyNodes a = true → ∃ t, exec (.gdetach addr) s = .next t ∧ t.cur.sel.gstat = 8 ∧ t.engines = s.engines
          ∧ t.store = s.store)
      ∧ (∀ a s1, s.attachedAt addr = some a → s.busyNodes a = false → endTraces s addr (List.range 16) = .ok () s1 → ∃ t,
          exec (.gdetach addr) s = .next t ∧ t.cur.sel.gstat = 0 ∧ t.attachedAt addr = none
          ∧ (∀ e ∈ t.engines.directory, e.2.1 ≠ addr) ∧ ∀ r ∈ t.engines.ready, r.parked = none → r.graph ≠ addr))
  ∧ (∀ (die : Nat) (k : Tokens) (s : State), s.engines.tokens.find? (fun t => t.die = die) = some k →
      let b := Table.get noBinding s.engines.directory k.addr
      ((s.attachedAt b.1 = none ∨ b.2 = 65536) → ∃ t, exec (.tokenStep die) s = .next t ∧ (t.die die).tokunb = satAdd (s.die die).tokunb k.n
          ∧ t.engines.tokens = s.engines.tokens.erase k ∧ t.store = s.store)
      ∧ (∀ a, s.attachedAt b.1 = some a → b.2 < a.ncount → b.2 < 65536 → s.graphOpen a → s.memOk →
          let p : Spot := ⟨k.addr % 2 ^ 44, a.slot.toNat, 2⟩
          let base := a.header.toNat % 2 ^ 44
          spaceOf p.loc = .hbm → s.store.ownerOf p.loc = a.slot.toNat → s.check p 8 true = none →
          (p.loc + 8 ≤ base ∨ base + 256 + 128 * a.ncount ≤ p.loc) →
          s.graphLocked a = false → s.lockedFor a.home p.loc 8 = false → s.trafficHeld die a.home = false → s.linkHeld a.home p.loc = false →
          s.plainWord a p →
          (s.gread a 10 2 = s.gen a ∨ ∀ k, k < 16 → (s.trace (k / 4) (k % 4)).graph ≠ a.header) →
          let w := tokstep (s.peek p 8) k.n (s.gen a)
          ∃ t, exec (.tokenStep die) s = .next t ∧ t.peek p 8 = w.1 ∧ t.engines.tokens = s.engines.tokens.erase k
            ∧ (¬(s.gread a 16 1 ≠ 0 ∧ s.gread a 10 2 = s.gen a) → t.gread a 16 1 = 1 ∧ t.gread a 10 2 = s.gen a ∧ t.gread a 20 4 = 0)
            ∧ (w.2 = false → (s.gread a 10 2 = s.gen a → t.engines.ready = s.engines.ready) ∧ (s.nodeState a b.2 = 0 → t.nodeState a b.2 = 1))
            ∧ (w.2 = true → s.nodeState a b.2 ≤ 1 → s.visiting a b.2 = none →
                (∃ q ∈ s.engines.runs, q.graph = a.header ∧ q.node = b.2 ∧ q.gen.toNat ≠ s.gen a ∧ q.busy = true) →
                t.gread a (nodeOff b.2 43) 1 = 1 ∧ t.nodeState a b.2 = s.nodeState a b.2)
            ∧ (w.2 = true → s.nodeState a b.2 ≤ 1 → s.visiting a b.2 = none →
                (∀ q ∈ s.engines.runs, q.graph = a.header → q.node = b.2 → q.gen.toNat = s.gen a ∨ q.busy = false) →
                t.nodeState a b.2 = 2 ∧ ∃ r q, t.engines.ready = q ++ [r] ∧ r.graph = a.header ∧ r.node = b.2 ∧ r.home = a.home
                  ∧ r.entered = s.cycle ∧ ∀ x, x ∈ q → x ∈ s.engines.ready ∧ (x.parked = none → x.graph = a.header → x.node ≠ b.2))))
  ∧ (∀ (die : Nat) (r : Ready) (a : Attached) (s : State), s.engines.ready = [r] → s.dispatchable die r = true → s.attachedAt r.graph = some a →
      let turn := turnOf [r.slot.toNat] (Table.get 1 s.engines.weight) (Table.get firstTurn s.engines.turnSlot die)
      (Table.get 1 s.engines.weight r.slot.toNat ≠ 0 → ∃ left, turn = some (r.slot.toNat, left))
      ∧ (∀ k, turn = some k →
          let s0 := (s.onEngines fun e => { e with turnSlot := Table.set firstTurn e.turnSlot die k }).gaudit a (nodeOff r.node 0) 96
          s0.graphLocked a = false →
          let g := s0.gangFor a r
          let why : Option (Nat × Nat) := if s0.nodeOk a r.node (s0.gread a (nodeOff r.node 43) 1) = false then some (7, 0) else if g.cores = true ∧ g.gsize > largestGang g.place then some (8, 0)
            else if g.req.min ≠ 0 ∧ s0.neverHolds g = true then some (6, 0x0F) else none
          (∀ w s2, why = some w → (s0.leaveReady r).failPlacing a r.node w.1 w.2 = .ok () s2 → ∃ t, exec (.nodeDispatch die) s = .next t
            ∧ t.store = s2.store ∧ t.engines = s2.engines)
          ∧ (∀ s1 s2, why = none → s0.hartsToStart a r.node g.gsize = .ok [] s1 → (s1.leaveReady r).nodeEnds a r.node 5 = .ok () s2 →
              ∃ t, exec (.nodeDispatch die) s = .next t ∧ t.store = s2.store ∧ t.engines = s2.engines)
          ∧ (∀ hs s1, why = none → s0.hartsToStart a r.node g.gsize = .ok hs s1 → hs ≠ [] → s1.placesFor g hs = [] → s1.farPlaces g hs = none → ∃ t,
              exec (.nodeDispatch die) s = .next t ∧ t.engines.runs = s1.engines.runs ∧ t.store = s1.store
                ∧ t.engines.ready = s1.engines.ready.map fun x => if x = r then { x with tried := true } else x)
          ∧ (∀ hs s0' s2 outs s1 ps, why = none → s0.hartsToStart a r.node g.gsize = .ok hs s0' → hs ≠ [] →
              s0'.placesFor g hs = ps → ps ≠ [] → (ps.map (·.2)).Nodup → s0'.startHeld ps = false → s0'.resetMask a r.node g.gsize = .ok () s2 →
              s2.outputs a r.node = .ok outs s1 → ∃ t q, exec (.nodeDispatch die) s = .next t
                ∧ t.engines.ready = s1.engines.ready.erase r ∧ q ∈ t.engines.runs ∧ q.id = s1.engines.nextRun ∧ q.outputs = outs ∧ q.graph = a.header ∧ q.node = r.node
                ∧ ((ps.map (·.2.die)).eraseDups.length ≤ 1 → q.state = .running ∧ q.live.length = ps.length ∧ ∀ e ∈ ps, let x := t.hart e.2
                    x.occ = .running ∧ x.base.pc = BitVec.ofNat 64 (s1.nfield a r.node 16 8) ∧ x.gr 1 = BitVec.ofNat 64 (s1.nfield a r.node 24 8)
                      ∧ x.base.key = a.slot ∧ x.base.ptroot = a.ptroot ∧ x.place.hix = BitVec.ofNat 13 e.1)
                ∧ (1 < (ps.map (·.2.die)).eraseDups.length → q.state = .placing ∧ q.live = [] ∧ ∃ l, t.engines.launches = s1.engines.launches ++ [l]
                    ∧ l.run = q.id ∧ l.prepare = (ps.map (·.2.die)).eraseDups ∧ l.deadline = s1.cycle + (s1.die a.home).launchto.toNat * 2400))
          ∧ (∀ hs s0' s2 outs s1 ps pkg rest, why = none → s0.hartsToStart a r.node g.gsize = .ok hs s0' → hs ≠ [] → s0'.placesFor g hs = [] →
              s0'.farPlaces g hs = some (ps, pkg, rest) → s0'.resetMask a r.node g.gsize = .ok () s2 → s2.outputs a r.node = .ok outs s1 →
              ∃ t q l, exec (.nodeDispatch die) s = .next t ∧ t.engines.ready = s1.engines.ready.erase r ∧ q ∈ t.engines.runs ∧ q.state = .placing
                ∧ q.live = [] ∧ q.toStart = hs ∧ t.engines.launches = s1.engines.launches ++ [l] ∧ l.run = q.id
                ∧ l.prepare = (ps.map (·.2.die)).eraseDups ++ [farEngine pkg] ∧ (farEngine pkg, rest) ∈ l.plan)))
  ∧ (∀ (die : Nat) (r : Ready) (s : State), s.engines.ready = [r] → r.home = die → ((r.tried = true ∧ s.dispatchable die r = true) ∨ r.parked.isSome = true) →
      r.entered + Config.agePeriod ≤ s.cycle → s.engines.reserved = [] → s.allowedDies r ≠ [] → ∃ t, exec (.reservation die) s = .next t
        ∧ t.engines.reserved = (s.allowedDies r).map (fun d => ⟨d, r.graph, r.node, r.parked, s.cycle, s.dieFreePods d, (List.range 16).flatMap (s.freeSlots d)⟩) ∧ t.engines.ready = s.engines.ready ∧ t.store = s.store)
  ∧ (∀ (die hix : Nat) (hs : List Nat) (r : Run) (a : Attached) (p : HartId) (ps : List HartId) (s : State), s.engines.runs = [r] → r.home = die →
      r.state = .running → r.cores = false → r.failure = none → (r.launch = false ∨ r.committed.length = 4) → r.toStart = hix :: hs →
      s.attachedAt r.graph = some a → s.graphLocked a = false → s.nextPlace r hix = p :: ps → s.startHeld [(hix, p)] = false → ∃ t q, exec (.foldedHartStart die) s = .next t ∧ t.engines.runs = [q]
        ∧ q.toStart = hs ∧ q.live = r.live ++ [s.nextUid] ∧ let x := t.hart p
          x.uid = s.nextUid ∧ x.occ = .running ∧ x.base.pc = r.entry ∧ x.gr 1 = r.args ∧ x.base.key = r.slot ∧ x.place.hix = BitVec.ofNat 13 hix)
  ∧ (∀ (run die : Nat) (l : Launch) (r : Run) (s : State), s.launchOf run = some l → s.runById run = some r →
      (s.attachedAt r.graph).any s.graphLocked = false →
      (∀ a hs, die ∈ l.prepare → s.attachedAt r.graph = some a → l.plan.find? (fun p => p.1 = die) = some (die, hs) →
        let room := s.dieOffers (s.restOf r) die
        die < 4 → s.startHeld (takePlaces hs room) = false → ∃ t l', exec (.prepare run die) s = .next t ∧ t.launchOf run = some l' ∧ l'.prepare = l.prepare.erase die
          ∧ (hs.length ≤ room.length → l'.acks = l.acks ++ [die] ∧ l'.nacks = l.nacks ∧ (room.Nodup → ∀ e ∈ takePlaces hs room,
              (t.hart e.2).occ = .running ∧ (t.hart e.2).base.pc = r.entry ∧ (t.hart e.2).place.hix = BitVec.ofNat 13 e.1))
          ∧ (room.length < hs.length → l'.nacks = l.nacks ++ [die] ∧ l'.acks = l.acks ∧ t.harts = s.harts))
      ∧ (∀ a hs, 4 ≤ die → die ∈ l.prepare → s.attachedAt r.graph = some a → l.plan.find? (fun p => p.1 = die) = some (die, hs) →
          l.acks ++ l.prepared ≠ [] → ∃ t l' q, exec (.prepare run die) s = .next t ∧ t.launchOf run = some l' ∧ l'.prepare = l.prepare.erase die
            ∧ l'.acks = l.acks ∧ t.runById run = some q ∧ q.far = r.far ++ hs.map (die - 4, ·) ∧ (∀ h ∈ hs, h ∉ q.toStart) ∧ t.store = s.store)
      ∧ (die ∈ l.acks → l.deadline ≤ s.cycle → exec (.ack run die) s = .next s)
      ∧ (die ∈ l.acks → s.cycle < l.deadline → let dies := l.plan.map (·.1)
          (dies.all (l.prepared ++ [die]).contains = false → ∃ t l', exec (.ack run die) s = .next t ∧ t.launchOf run = some l'
            ∧ l'.acks = l.acks.erase die ∧ l'.prepared = l.prepared ++ [die] ∧ l'.commits = l.commits ∧ (die < 4 → t.store = s.store))
          ∧ (∀ a, dies.all (l.prepared ++ [die]).contains = true → dies ≠ [] → r.state = .placing → s.attachedAt r.graph = some a →
              r.gen.toNat = s.gen a → s.nodeState a r.node = 3 → s.graphOpen a → r.node < a.ncount → s.memOk →
              ∃ t l' q, exec (.ack run die) s = .next t ∧ t.launchOf run = some l' ∧ l'.commits = dies ∧ t.runById run = some q ∧ q.state = .running
                ∧ t.nodeState a r.node = 4))
      ∧ (die ∈ l.nacks → l.deadline ≤ s.cycle → exec (.nack run die) s = .next s)
      ∧ (∀ a, s.cycle < l.deadline → die ∈ l.nacks → die ∈ l.plan.map (·.1) → die ∉ l.prepare → s.attachedAt r.graph = some a → r.gen.toNat = s.gen a →
          ∃ t l' q e, exec (.nack run die) s = .next t ∧ t.launchOf run = some l' ∧ l'.prepare = [] ∧ l'.commits = []
            ∧ l'.aborts = (l.plan.map (·.1)).filter (fun d => !l.prepare.contains d) ∧ t.runById run = some q ∧ q.state = .aborted ∧ q.toStart = []
            ∧ e ∈ t.engines.ready ∧ e.graph = a.header ∧ e.node = r.node ∧ e.entered = r.entered)
      ∧ (∀ a, l.deadline ≤ s.cycle → l.commits = [] → l.aborts = [] → s.attachedAt r.graph = some a → r.gen.toNat = s.gen a →
          (∃ d ∈ l.plan.map (·.1), d ∉ l.prepare) → s.gread a (nodeOff r.node 80) 8 = 0 →
          s.gread a (nodeOff r.node 37) 1 < s.gread a (nodeOff r.node 36) 1 → ∃ t l' q e, exec (.launchTimeout run) s = .next t
            ∧ t.launchOf run = some l' ∧ l'.prepare = [] ∧ l'.aborts = (l.plan.map (·.1)).filter (fun d => !l.prepare.contains d)
            ∧ t.runById run = some q ∧ q.state = .aborted ∧ e ∈ t.engines.ready ∧ e.graph = a.header ∧ e.node = r.node ∧ e.entered = r.entered)
      ∧ (die < 4 → die ∈ l.commits → (r.held.filter fun f => f.2.loc.any fun h => h.die = die) = [] → ∃ t q, exec (.commit run die) s = .next t
          ∧ t.runById run = some q ∧ (∀ x : Hart, x.id.die = die → q.waitsCommit x = false) ∧ q.held = r.held ∧ t.store = s.store ∧ t.harts = s.harts)
      ∧ (die ∈ l.aborts → r.live ≠ [] → (∀ x ∈ s.engines.parked, x.place.run = some run → x.id.die ≠ die) → ∃ t, exec (.abort run die) s = .next t ∧ t.store = s.store
          ∧ (∀ h : HartId, h.die = die → (s.hart h).place.run = some run → t.hart h = (s.hart h).aborts s.cycle)
          ∧ ∀ h : HartId, h.die ≠ die ∨ (s.hart h).place.run ≠ some run → t.hart h = s.hart h))
  ∧ (∀ (a : Attached) (w : Walk) (ws : List Walk) (s : State), s.attachedAt a.header = some a → a.walks = w :: ws → s.graphLocked a = false → s.memOk →
      (∀ n rest, w.visit = none → s.unreached a w.queue = n :: rest → ∃ t, exec (.walkVisit a.header.toNat) s = .next t
        ∧ t.gread a 40 8 % 65536 = n % 65536 ∧ bitsOf (t.gread a 40 8) 62 16 = bitsOf (s.gread a 40 8) 62 16 ∧ 2 ^ 63 ≤ t.gread a 40 8
        ∧ (∀ i, t.nodeState a i = s.nodeState a i) ∧ t.walkOf a = some { w with queue := rest, visit := some ⟨n, s.cycle, false, false, false, false⟩ })
      ∧ (∀ v, w.visit = some v → v.told = false → v.marked = false → v.since < s.cycle → v.node < a.ncount → s.graphOpen a →
          s.nodeState a v.node ≤ 2 → s.gread a (nodeOff v.node 6) 1 / 32 % 2 = 0 → s.cycle % 64 ≠ 63 → ∃ t, exec (.walkVisit a.header.toNat) s = .next t
            ∧ t.nodeState a v.node = 9 ∧ t.gread a (nodeOff v.node 72) 8 = w.origin % 65536 + 5 * 65536
            ∧ t.gread a 28 4 = (s.gread a 28 4 + 1) % 2 ^ 32 ∧ t.cycle = s.cycle + 1
            ∧ t.walkOf a = some { w with visit := some { v with marked := true, told := true, skips := false, queues := true } }
            ∧ ∀ e ∈ t.engines.ready, e.graph = a.header → e.parked = none → e.node ≠ v.node)
      ∧ (∀ v, w.visit = some v → v.told = true → (w.all = true ∨ v.queues = false ∨ s.gread a (nodeOff v.node 44) 2 = 0) → s.gread a 48 8 = 0 →
          ∃ t, exec (.walkVisit a.header.toNat) s = .next t ∧ t.gread a 40 8 % 65536 = s.gread a 40 8 % 65536
            ∧ bitsOf (t.gread a 40 8) 62 32 = (bitsOf (s.gread a 40 8) 62 32 + 1) % 2 ^ 31 ∧ (∀ i, t.nodeState a i = s.nodeState a i)
            ∧ (s.unreached a w.queue = [] → ws = [] → t.gread a 40 8 < 2 ^ 63)))
/-! ### Management events -/

/-- The stewards, trace sessions, sensors and links take their events when they can (R14, R17, R19, R21, R32-R38, R40, R183-R186, R269-R273). A steward copies
a page into a frame and writes the leaf, fails, asks the host, or waits for a frame; a leaf that software has changed against R183 leaves free values
in itself and its page. A session starts or is refused, writes a batch, and stops when full or refused. A sample raises ALERT and the event; the clamp
acts; power is measured every 100 microseconds. A flit is counted, ignored, replayed or delivered; links retrain, switch
over and go down; XQ entries towards an unreachable package fail, and so does a launch that has yet to commit there.
Staged records (log 18), pages in use (log 34), the counts of REPLAY and RETRY and the SEQ expected (log 35) and the payloads (log 17) are the model's.
That THALERT is compared as a signed number and that a sensor without a sample counts 0 degrees in the clamp's release are the model's choices
(log 15). -/
def Obligations.ManagementEvents : Prop :=
  (∀ e ∈ [(Instr.stewardServiceDone, false), (.stewardRetry, true)], ∀ (die : Nat) (v : Service) (s : State),
      (s.die die).steward.services.find? (fun x => x.waiting = e.2) = some v → s.store.bytes.readN v.leaf 8 = (v.entry ||| 0x200) →
      let key := bitsOf v.entry 63 56
      s.lockedFor (stewardName die) v.leaf 8 = false →
      (∀ s0, s.takeFrame die = (none, s0) → ∃ t x, exec (e.1 die) s = .next t ∧ x ∈ (t.die die).steward.services ∧ x.leaf = v.leaf ∧ x.waiting = true
        ∧ (t.die die).steward.waits = (if v.waiting then (s0.die die).steward.waits else satAdd (s0.die die).steward.waits 1) ∧ t.store = s0.store)
      ∧ (∀ f s0, s.takeFrame die = (some f, s0) →
          (∀ c, (originOf s0 v.entry = none ∧ c = 5 ∨ ∃ o, originOf s0 v.entry = some o ∧ (s0.check ⟨o, key, 2⟩ 0x10000 false = some c
              ∨ s0.check ⟨o, key, 2⟩ 0x10000 false = none ∧ s0.store.keyLoaded key = false ∧ c = 6)) → ∃ t,
            exec (e.1 die) s = .next t ∧ t.store.failed = s0.store.failed ++ v.waiters.map (fun w => (w, v.leaf, c))
              ∧ ∀ x ∈ (t.die die).steward.services, x.leaf ≠ v.leaf)
          ∧ (∀ o, originOf s0 v.entry = some o → s0.check ⟨o, key, 2⟩ 0x10000 false = none → s0.store.keyLoaded key = true → spaceOf o ≠ .host → s0.store.bytes.wf = true →
              f % 0x10000 = 0 → f < 2 ^ 44 → (o + 0x10000 ≤ f ∨ f + 0x10000 ≤ o) → (v.leaf + 8 ≤ f ∨ f + 0x10000 ≤ v.leaf) →
              ∃ t, exec (e.1 die) s = .next t ∧ (∀ x ∈ (t.die die).steward.services, x.leaf ≠ v.leaf)
                ∧ (t.die die).steward.serv = satAdd (s0.die die).steward.serv 1
                ∧ (let l := t.store.bytes.readN v.leaf 8
                   bitsOf l 1 0 = 1 + 2 * bitsOf v.entry 1 1 ∧ bitsOf l 9 6 = 4 ∧ bitsOf l 43 16 * 0x10000 = f ∧ bitsOf l 55 44 = s0.pkgid.toNat ∧ bitsOf l 63 56 = key)
                ∧ ∀ i < 0x10000, t.store.bytes.read (f + i) = if s0.store.ownerOf o = freeOwner then 0 else s0.store.bytes.read (o + i))
          ∧ (∀ o, originOf s0 v.entry = some o → s0.check ⟨o, key, 2⟩ 0x10000 false = none → s0.store.keyLoaded key = true → spaceOf o = .host →
              (∀ x ∈ s0.port.answers, x.who ≠ stewardName die) → (∀ x ∈ s0.port.requests, x.who ≠ stewardName die) → ∃ t, exec (e.1 die) s = .next t
                ∧ t.port.requests = s0.port.requests ++ [⟨stewardName die, o, s0.port.bus o, 0x10000, s0.cycle⟩] ∧ t.store = s.store ∧ t.dies = s.dies)))
  ∧ (∀ e ∈ [(Instr.stewardServiceDone, false), (.stewardRetry, true)], ∀ (die : Nat) (v : Service) (s : State),
      (s.die die).steward.services.find? (fun x => x.waiting = e.2) = some v → s.store.bytes.readN v.leaf 8 ≠ (v.entry ||| 0x200) →
      s.lockedFor (stewardName die) v.leaf 8 = false → s.store.bytes.wf = true → ∃ t, exec (e.1 die) s = .next t
        ∧ (∀ x ∈ (t.die die).steward.services, x.leaf ≠ v.leaf) ∧ t.store.failed = s.store.failed ∧ t.harts = s.harts
        ∧ ∀ a, (a < v.leaf ∨ v.leaf + 8 ≤ a) → (∀ o, originOf s v.entry = some o → spaceOf o = .hbm → a < o ∨ o + 0x10000 ≤ a) →
            t.store.bytes.read a = s.store.bytes.read a)
  ∧ (∀ (die : Nat) (v : Word) (s : State), let w := (s.die die).steward
      let n := 2 ^ (w.ring.toNat % 32)
      let i := BitVec.ofNat 32 v.toNat
      (∃ t, exec (.stwtailWrite die v) s = .next t ∧ t.store = s.store ∧ (t.die die).steward =
        if 4 ≤ w.ring.toNat % 32 ∧ w.ring.toNat % 32 ≤ 20 ∧ (i - w.head).toNat ≤ n ∧ (i - w.tail).toNat ≤ n then { w with tail := i } else w)
      ∧ ∃ t, exec (.stwringWrite die v) s = .next t ∧ t.store = s.store ∧ (t.die die).steward.ring = v &&& 0x00FFFFFFFFFFF01F
          ∧ (t.die die).steward.head = w.head ∧ (t.die die).steward.tail = w.head)
  ∧ (∀ (die n : Nat) (s : State), let x := s.trace die n
      (x.en = true → exec (.traceStart die n) s = .next s)
      ∧ (x.en = false → (s.attachedAt x.graph = none ∨ x.log2.toNat > 10 ∨ (Config.devFeat &&& ~~~s.port.featmask).getLsbD 5 = false) →
          ∃ t, exec (.traceStart die n) s = .next t ∧ (t.trace die n).en = false ∧ (t.trace die n).stop = 5 ∧ t.store = s.store)
      ∧ (∀ a, x.en = false → s.attachedAt x.graph = some a →
          let y : Trace := { x with ptroot := a.ptroot, key := a.slot, en := true, stop := 0, loss := 0, wpos := 0, staged := [], gen := BitVec.ofNat 16 (s.gen a), opening := some s.port.time, closing := false }
          let z := y.emit y.graph ⟨8, 0, 0, y.gen, 0, s.port.time, 0, 0, false⟩
          let s0 := s.onTrace die n fun _ => z
          let opens := x.log2.toNat ≤ 10 ∧ (Config.devFeat &&& ~~~s.port.featmask).getLsbD 5 = true ∧ s.bufferMapped y = true
          (s.bufferMapped y = false → ∃ t, exec (.traceStart die n) s = .next t ∧ (t.trace die n).en = false ∧ (t.trace die n).stop = 5 ∧ t.store = s.store)
          ∧ (∀ c v s1, opens → traceWords s0 (z.cx die) z 0 (z.header s.port.time) = .trap c v s1 → ∃ t, exec (.traceStart die n) s = .next t
              ∧ (t.trace die n).en = false ∧ (t.trace die n).stop = 3)
          ∧ (∀ s1, opens → traceWords s0 (z.cx die) z 0 (z.header s.port.time) = .ok () s1 → ∃ t, exec (.traceStart die n) s = .next t ∧ t.store = s1.store
                ∧ (t.trace die n).en = true ∧ (t.trace die n).stop = 0 ∧ (t.trace die n).loss = 0 ∧ (t.trace die n).wpos = 0 ∧ (t.trace die n).opening = none
                ∧ (t.trace die n).staged.map TraceRec.kind = if x.mask.getLsbD 7 then [8] else []))
      ∧ (∀ u v s1 s2, x.closing = true → writeMem s (x.cx die) (x.at_ 4) 4 x.stop.toNat .plain = .ok u s1 →
          writeMem s1 (x.cx die) (x.at_ 16) 8 x.loss.toNat .plain = .ok v s2 → ∃ t, exec (.traceBatchWrite die n) s = .next t
            ∧ t.store = s2.store ∧ (t.trace die n).closing = false ∧ (t.trace die n).en = x.en)
      ∧ (x.closing = false → (x.en = false ∨ x.staged = []) → ∃ t, exec (.traceBatchWrite die n) s = .next t ∧ t.store = s.store ∧ t.dies = s.dies)
      ∧ (∀ w bad s1, x.closing = false → x.en = true → x.opening = none → x.staged ≠ [] → writeRecords s (x.cx die) x x.wpos x.staged = .ok (w, bad) s1 →
          let s2 := s1.onTrace die n fun y => { y with wpos := w, staged := y.staged.drop (w - y.wpos) }
          (bad = true → ∃ t, exec (.traceBatchWrite die n) s = .next t ∧ (t.trace die n).en = false ∧ (t.trace die n).stop = 3
            ∧ (t.trace die n).staged = [] ∧ (t.trace die n).loss = satAdd x.loss (x.staged.length - (w - x.wpos)))
          ∧ (∀ u s3, bad = false → writeMem s2 (x.cx die) (x.at_ 8) 8 w ⟨false, true, 5, false⟩ = .ok u s3 → ∃ t, exec (.traceBatchWrite die n) s = .next t
              ∧ (t.trace die n).wpos = w ∧ (w < x.capacity → t.store = s3.store ∧ (t.trace die n).en = true ∧ (t.trace die n).staged = x.staged.drop (w - x.wpos))
              ∧ (x.capacity ≤ w → (t.trace die n).en = false ∧ (t.trace die n).stop = 1 ∧ (t.trace die n).staged = []))))
  ∧ (∀ (die i : Nat) (v : BitVec 12) (s : State), i < 264 → Table.risingFrom 0 (s.die die).sensors → let x := (s.die die).sensor i
      let hot := (s.die die).thalert.toInt ≤ v.toInt
      (s.sampleDue die i = false → ∃ t, exec (.thermalSample die [(i, v)]) s = .next t ∧ t.dies = s.dies ∧ t.harts = s.harts ∧ t.store = s.store)
      ∧ (s.sampleDue die i = true → ∃ t, exec (.thermalSample die [(i, v)]) s = .next t ∧ ((t.die die).sensor i).temp = some v ∧ t.store = s.store
        ∧ (((t.die die).sensor i).alert = true ↔ x.alert = true ∨ hot)
        ∧ (hot → x.alert = false → (t.hart (mgmtSlot die)).trap.held.any (fun p => p.1 = 0x23) = true)
        ∧ ((¬hot ∨ x.alert = true) → t.harts = s.harts)
        ∧ ∀ c < 16, (t.cluster die c).clamp = true ↔ (s.cluster die c).clamp = true ∧ ∃ y ∈ t.clusterSensors die c, 800 < y.value))
  ∧ (∀ (die c : Nat) (w : BitVec 16) (s : State), c < 16 →
      (∃ t, exec (.clamp die c) s = .next t ∧ t.harts = s.harts ∧ t.store = s.store ∧ (∀ k < 16, k ≠ c → t.cluster die k = s.cluster die k)
        ∧ ((t.cluster die c).clamp = true ↔ (∃ y ∈ s.clusterSensors die c, y.temp.isSome = true ∧ 840 ≤ y.value)
            ∨ (s.cluster die c).clamp = true ∧ ∃ y ∈ s.clusterSensors die c, 800 < y.value))
      ∧ ((∀ k, (s.die die).measured = some k → k + 240000 ≤ s.cycle) → ∃ t, exec (.powerMeasure die w) s = .next t ∧ (t.die die).pwrnow = w
        ∧ (t.die die).measured = some s.cycle ∧ t.harts = s.harts ∧ t.store = s.store)
      ∧ ∀ k, (s.die die).measured = some k → s.cycle < k + 240000 → exec (.powerMeasure die w) s = .next s)
  ∧ (∀ (die n : Nat) (f : Flit) (s : State), let p := (s.die die).port n
      Table.risingFrom 0 (s.die die).ports → p.lanes ≠ 0 → p.retraining = false → n < 36 → p.waiting = [] → p.held = [] → p.unacked.length < 2048 →
      (crc32c f.covered ≠ f.crc.toNat → ∃ t, exec (.flitReceive die n f) s = .next t ∧ t.store = s.store ∧ t.harts = s.harts
        ∧ (t.die die).port n = { p with crcerr := satAdd p.crcerr 1, sent := p.sent ++ [.nak (p.rcvd.getD 0xFFF)] })
      ∧ (crc32c f.covered = f.crc.toNat → f.ackv = false →
          let p1 := { p with rcvd := some f.seq }
          let s1 := s.onScalePort die n fun p => { p with rcvd := some f.seq }
          let answers : State → RemoteReply → Prop := fun t r => ((t.die die).port n).sent = p.sent ++ [.response f.tag r]
            ∧ ((t.die die).port n).unacked = p.unacked ++ [(p.seq, .response f.tag r)] ∧ ((t.die die).port n).rcvd = some f.seq
          (f.seq ≠ p.expects → exec (.flitReceive die n f) s = .next s)
          ∧ (f.seq = p.expects → f.malformed = true → ∃ t, exec (.flitReceive die n f) s = .next t ∧ t.store = s.store ∧ t.harts = s.harts
              ∧ (t.die die).port n = { p1 with drop := satAdd p.drop 1 })
          ∧ (f.seq = p.expects → f.malformed = false → f.body = .nak → f.fits = true → ∃ t, exec (.flitReceive die n f) s = .next t ∧ t.store = s.store
              ∧ (∀ i x j, p.unacked = i ++ (f.ack, x) :: j → (∀ e ∈ i, e.1 ≠ f.ack) → ((t.die die).port n).unacked = j
                ∧ (j ≠ [] → ((t.die die).port n).replay = satAdd p.replay 1 ∧ ((t.die die).port n).again = 1
                  ∧ ((t.die die).port n).sent = p.sent ++ j.map (·.2))))
          ∧ (f.seq = p.expects → f.malformed = false → f.dpkg = s.pkgid → f.fits = true →
              (∀ addr slot bytes r s2, f.body = .put addr slot bytes → remoteWrite s1 (remoteCx die n slot f) addr 0 bytes = .ok r s2 →
                ∃ t, exec (.flitReceive die n f) s = .next t ∧ t.store = s2.store
                  ∧ answers t (match r with | none => .done [] | some (c, i) => .refused (BitVec.ofNat 8 c) i))
              ∧ (∀ addr slot k r s2, f.body = .get addr slot k → remoteRead s1 (remoteCx die n slot f) addr 0 k = .ok r s2 →
                ∃ t, exec (.flitReceive die n f) s = .next t ∧ t.store = s2.store
                  ∧ answers t (match r.2 with | none => .done r.1 | some (c, i) => .refused (BitVec.ofNat 8 c) i))
              ∧ (∀ w s2, f.body ≠ .nak → deliverFlit s1 die n f = .stall w s2 → ∃ t, exec (.flitReceive die n f) s = .next t ∧ ((t.die die).port n).held = [f])
              ∧ (∀ addr k slot s2, f.body = .sig addr k slot → physTokens s1 (remoteCx die n slot f) 0 addr k = .ok () s2 → ∃ t, exec (.flitReceive die n f) s = .next t
                  ∧ t.engines.tokens = s2.engines.tokens ∧ t.store = s.store ∧ answers t (.done [])))))
  ∧ (∀ (die n lanes : Nat) (s : State), Table.risingFrom 0 (s.die die).ports → let p := (s.die die).port n
      (p.again < 8 → exec (.retrain (.port die n)) s = .next s)
      ∧ (8 ≤ p.again → ∃ t, exec (.retrain (.port die n)) s = .next t ∧ (t.die die).port n = { p with retraining := true } ∧ t.store = s.store)
      ∧ (p.retraining = true → ∃ t, exec (.retrainDone (.port die n) lanes) s = .next t ∧ ((t.die die).port n).lanes = min lanes p.lanes
          ∧ ((t.die die).port n).retraining = false ∧ ((t.die die).port n).again = 0 ∧ t.store = s.store
          ∧ (p.lanes ≤ lanes → ((t.die die).port n).evt = p.evt ∧ t.harts = s.harts)
          ∧ (lanes < p.lanes → ((t.die die).port n).evt = true ∧ (p.evt = false → (t.hart (mgmtSlot die)).trap.held.any (fun e => e.1 = 0x24) = true))))
  ∧ (∀ (n lanes : Nat) (s : State), n < 6 → Table.risingFrom 0 s.links → let a := (linkDies n).1
      let b := (linkDies n).2
      Table.risingFrom 0 (s.die a).ports → Table.risingFrom 0 (s.die b).ports →
      let s1 := ((s.onLinkEnds n fun p => { p with lanes := 0, retraining := false }).dieLinkDown a b).dieLinkDown b a
      let worn := 8 ≤ ((s.die a).port (36 + b)).again ∨ 8 ≤ ((s.die b).port (36 + a)).again
      let down : State → Prop := fun t => (t.die a).up.getLsbD b = false ∧ (t.die b).up.getLsbD a = false ∧ (t.die a).downev.getLsbD b = true
        ∧ (t.die b).downev.getLsbD a = true ∧ ((s.die a).downev.getLsbD b = false → (t.hart (mgmtSlot a)).trap.held.any (fun e => e.1 = 0x24) = true)
      (¬worn → exec (.retrain (.d2d n)) s = .next s)
      ∧ (s.linkState n = 0 → worn → ∃ t, exec (.retrain (.d2d n)) s = .next t ∧ t.linkState n = 1 ∧ ((t.die a).port (36 + b)).retraining = true
        ∧ ((t.die b).port (36 + a)).retraining = true ∧ t.store = s.store)
      ∧ (s.linkState n = 1 → lanes ≠ 0 → ∃ t, exec (.retrainDone (.d2d n) lanes) s = .next t ∧ t.linkState n = 0
        ∧ ((t.die a).port (36 + b)).retraining = false ∧ ((t.die b).port (36 + a)).retraining = false ∧ t.store = s.store)
      ∧ (∀ m, s.linkState n = 1 → s1.stranded n = some m → ∃ t, exec (.retrainDone (.d2d n) 0) s = .next t ∧ t.linkState n = 3 ∧ down t
          ∧ ∀ d < 4, (t.die d).boot.fail = 8 ∧ (t.die d).boot.detail = m)
      ∧ (s.linkState n = 1 → s1.stranded n = none → s.engines.runs = [] → ∃ t, exec (.retrainDone (.d2d n) 0) s = .next t ∧ t.linkState n = 2
          ∧ down t ∧ t.halted = s.halted ∧ t.store = s.store)
      ∧ (s.linkState n = 2 → s.joined a b = false → s.joined b a = false → ∃ t, exec (.switchoverEnd n) s = .next t ∧ t.linkState n = 3 ∧ t.store = s.store
        ∧ ((t.die a).port (36 + b)).unacked = [] ∧ ((t.die b).port (36 + a)).unacked = []))
  ∧ (∀ (pkg : Nat) (s : State), pkg ≠ s.pkgid.toNat →
      (∀ s1, s.packageLost pkg = .ok () s1 → ∃ t, exec (.packageUnreachable pkg) s = .next t ∧ t.store = s1.store ∧ ∀ h : HartId,
        (∀ e es, (s1.hart h).qs.xq = e :: es → e.remote.toNat / 2 ^ 44 = pkg → (s1.hart h).qs.ready e.after = true →
          (t.hart h).qs.xq = [] ∧ (t.hart h).ev.evr = BitVec.ofNat 64 (0x0C + 3 * 2 ^ 16 + e.done % 2 ^ 32 * 2 ^ 32)
            ∧ (t.hart h).ev.evl = (s1.hart h).ev.evl ||| 2 ||| 16 ∧ (t.hart h).base = (s1.hart h).base)
        ∧ ((s1.hart h).qs.xq = [] → t.hart h = s1.hart h))
      ∧ (s.engines.runs = [] → s.packageLost pkg = .ok () s)
      ∧ ∀ a r l, s.engines.runs = [r] → s.launchOf r.id = some l → farEngine pkg ∈ l.plan.map (·.1) → l.commits = [] → l.aborts = [] →
          s.cycle < l.deadline → s.attachedAt r.graph = some a → s.graphLocked a = false → s.memOk → r.gen.toNat = s.gen a →
          s.nodeState a r.node = 3 → s.graphOpen a → r.node < a.ncount → ∃ t,
          exec (.packageUnreachable pkg) s = .next t ∧ t.nodeState a r.node = 2
            ∧ ∃ e ∈ t.engines.ready, e.graph = a.header ∧ e.node = r.node ∧ e.entered = r.entered)
/-! ### Host events -/

/-- HERR after an error (R50): CODE, VALID, OVF where VALID or OVF stood, bits 45 to 8 of the offset. -/
def Sys2Proof.Machine.State.logs (s t : State) (code off : Nat) : Prop :=
  t.port.herr = BitVec.ofNat 64 (code + 16 + (if s.port.herr.getLsbD 4 = true ∨ s.port.herr.getLsbD 5 = true then 32 else 0) + off / 256 % 2 ^ 38 * 256)

/-- The port sends one completion, Completer Abort or message. -/
def Sys2Proof.Machine.State.sends (s t : State) (x : Sent) : Prop := t.port.sent = s.port.sent ++ [x]

/-- The registers of BAR 0 that a write changes, with the bits that it may write (R50). -/
def Sys2Proof.Machine.hostRegisters : List (Nat × (Port0 → Word) × Word) :=
  [(0x10, fun q => q.featmask.setWidth 64, 0x3F), (0x20, Port0.time, BitVec.allOnes 64), (0x28, Port0.tokbase, 0x00FFFFFFFFFF0001),
   (0x30, Port0.hwbase, 0xFFFFFFFFFFFFF001), (0x10000, fun q => (Table.get 0 q.hapt 0).setWidth 64, 0x1FF),
   (0x10FF8, fun q => (Table.get 0 q.hapt 511).setWidth 64, 0x1FF)]

/-- The requests of the host take place (R47, R48, R50-R55, R60), and start-up (R27, R51). Closed windows abort with code 4; a FetchAdd is a token step that
returns the old word; reads and writes of device memory follow the owner and the key of each part; registers take the bits that may be written;
refused requests have the fates of R47; a start clears the machine and keeps the registers of R50; the steps of R27 go on or halt; host
memory answers or times out; an unmasked vector sends what is pending; a Hot Reset changes nothing.
Model's choices: the closed windows, the code of a misaligned FetchAdd, the order of answers, the ignored 4-byte write to RSTREQ, the token page that
is read whatever EN says, the token word that cannot be reached, a region that a start in steps 0 to 3 leaves as it is (log 36); the MSI-X table and
the order of the identity's bytes, the PCI Express family's (log 25); that a start resets every hart (log 1) and empties memory and owners (log 4) at
the request, where R27 and R51 scrub at step 6. -/
def Obligations.HostEvents : Prop :=
  (∀ (off : Nat) (a : Word) (s : State), off < 0x10000 → let loc := s.tokenAddr off % 2 ^ 44
    let bad := s.port.tokbase.getLsbD 0 = false ∨ off % 8 ≠ 0 ∨ -1 < a.toInt ∨ a.toInt < -65535
    (s.hostClosed = true → ∃ t, exec (.hostFetchadd off a) s = .next t ∧ s.sends t .abort ∧ s.logs t 4 off ∧ t.store = s.store ∧ t.engines = s.engines)
    ∧ (s.hostClosed = false → bad → ∃ t, exec (.hostFetchadd off a) s = .next t ∧ s.sends t .abort ∧ s.logs t 5 off ∧ t.store = s.store
        ∧ t.engines = s.engines)
    ∧ (s.hostClosed = false → ¬bad → s.tokenOpen off true = false → ∃ t, exec (.hostFetchadd off a) s = .next t
        ∧ s.sends t (.completion (List.replicate 8 0xFF) false) ∧ s.logs t 2 off ∧ t.store = s.store ∧ t.engines = s.engines)
    ∧ (s.hostClosed = false → ¬bad → s.tokenOpen off true = true → s.store.poisoned loc 8 = false →
        (∀ u, s.tokenStep 0 loc (-a.toInt).toNat = .ok () u →
          exec (.hostFetchadd off a) s = .next (u.portSends (.completion (toBytes 8 (s.peek (physSpot 0 loc) 8)) false)))
        ∧ (∀ w u, s.tokenStep 0 loc (-a.toInt).toNat = .stall w u → ∃ t, exec (.hostFetchadd off a) s = .next t ∧ t.port.sent = s.port.sent
          ∧ t.store = s.store ∧ t.port.held = s.port.held ++ [.fetchadd off a])))
  ∧ (∀ (off n : Nat) (s : State), 0 < n → off + n ≤ 0x8000000000 →
      (s.hostClosed = true → ∃ t, exec (.hostMemoryRead off n) s = .next t ∧ s.sends t .abort ∧ s.logs t 4 off ∧ t.store = s.store)
      ∧ (s.hostClosed = false → (∀ l ∈ s.store.poison ++ s.store.soft, l < off / 64 ∨ (off + n - 1) / 64 < l) → ∃ t bs, exec (.hostMemoryRead off n) s = .next t
          ∧ s.sends t (.completion bs false) ∧ bs.length = n ∧ t.store.bytes = s.store.bytes
          ∧ (∀ i < n, bs[i]? = some (if s.partKey (off + i) false = none then 0xFF else if s.store.ownerOf (off + i) = freeOwner then 0
              else s.store.bytes.read (off + i)))
          ∧ ((∀ i < n, s.partKey (off + i) false ≠ none) → t.port.herr = s.port.herr)
          ∧ (∀ i < n, s.partKey (off + i) false = none → (∀ j < i, s.partKey (off + j) false ≠ none) → s.logs t 2 (off + i))))
  ∧ (∀ (off : Nat) (bs : List Byte) (s : State), bs ≠ [] → off + bs.length ≤ 0x8000000000 →
      (s.hostClosed = true → ∃ t, exec (.hostMemoryWrite off bs) s = .next t ∧ s.logs t 4 off ∧ t.port.sent = s.port.sent ∧ t.store = s.store)
      ∧ (s.hostClosed = false → s.store.lock = none → (∀ x, s.linkHeld 0 x = false) → s.store.bytes.wf = true → Table.risingFrom 0 s.store.owners →
          s.engineHit off bs.length = [] → ∃ t,
          exec (.hostMemoryWrite off bs) s = .next t ∧ t.port.sent = s.port.sent
          ∧ (∀ x, t.store.bytes.read x = if off ≤ x ∧ x < off + bs.length ∧ s.partKey x true ≠ none then bs.getD (x - off) 0 else s.store.bytes.read x)
          ∧ (∀ i < bs.length, ∀ k, s.partKey (off + i) true = some k → t.store.ownerOf (off + i) = k)
          ∧ ((∀ i < bs.length, s.partKey (off + i) true ≠ none) → t.port.herr = s.port.herr)
          ∧ (∀ i < bs.length, s.partKey (off + i) true = none → (∀ j < i, s.partKey (off + j) true ≠ none) → s.logs t 2 (off + i))))
  ∧ (∀ (off n : Nat) (x : Word) (s : State), off < 0x4000000 →
      (configSize off n = false → ∃ t, exec (.hostConfigWrite off n x) s = .next t ∧ s.logs t 1 off ∧ t.port.sent = s.port.sent ∧ t.store = s.store)
      ∧ (configSize off n = true → let o := off / 8 * 8
          let b := 8 * (off % 8)
          (∀ r ∈ hostRegisters, o = r.1 → Table.risingFrom 0 s.port.hapt → ∃ t, exec (.hostConfigWrite off n x) s = .next t ∧ t.store = s.store
            ∧ t.cur = s.cur ∧ ∀ k < 64, (r.2.1 t.port).getLsbD k =
                if b ≤ k ∧ k < b + 8 * n ∧ r.2.2.getLsbD k = true then x.getLsbD (k - b) else (r.2.1 s.port).getLsbD k)
          ∧ (o = 0x38 → ∃ t, exec (.hostConfigWrite off n x) s = .next t ∧ ∀ k < 64, t.port.herr.getLsbD k =
              (s.port.herr.getLsbD k && !decide ((k = 4 ∨ k = 5) ∧ b ≤ k ∧ k < b + 8 * n ∧ x.getLsbD (k - b) = true)))
          ∧ (off = 0x1000 → s.port.busy = true → exec (.hostConfigWrite off n x) s = .next { s with port := { s.port with ovr := true } })
          ∧ (off = 0x1000 → s.port.busy = false → ∃ t, exec (.hostConfigWrite off n x) s = .next t ∧ t.port.busy = true
              ∧ t.port.mbcmd = x.setWidth 8 ∧ t.port.mbdata = s.port.mbdata)
          ∧ (o = 0x1008 → ∃ t, exec (.hostConfigWrite off n x) s = .next t ∧ t.port.busy = s.port.busy
              ∧ t.port.ovr = (s.port.ovr && !decide (off = 0x1008 ∧ x.getLsbD 1 = true)))
          ∧ (0x2000 ≤ o → o < 0x3000 → s.port.mbdata.wf = true → ∃ t, exec (.hostConfigWrite off n x) s = .next t ∧ t.store = s.store
              ∧ (s.port.busy = true → t.port.mbdata = s.port.mbdata) ∧ (s.port.busy = false → t.port.mbdata.readN (off - 0x2000) n = x.toNat % 2 ^ (8 * n)))
          ∧ (o = 0x60 → n = 8 → x.toNat / 2 ^ 48 = 0x5A4D → x.toNat % 4 = 1 → exec (.hostConfigWrite off n x) s = exec .rstreqWarm s)
          ∧ (o = 0x60 → n = 8 → x.toNat / 2 ^ 48 = 0x5A4D → x.toNat % 4 = 2 → exec (.hostConfigWrite off n x) s = exec .rstreqCold s)
          ∧ (o = 0x60 → (n = 4 ∨ x.toNat / 2 ^ 48 ≠ 0x5A4D ∨ x.toNat % 4 = 0 ∨ x.toNat % 4 = 3) → exec (.hostConfigWrite off n x) s = .next s)
          ∧ (o ∈ [0, 8, 0x18, 0x40, 0x48, 0x50, 0x58, 0x68] → exec (.hostConfigWrite off n x) s = .next s)))
  ∧ (∀ (off n : Nat) (s : State), let ran : HostRequest → State → Prop := fun r t => exec (.hostRefusedRequest r) s = .next t ∧ t.store = s.store ∧ t.engines = s.engines
      (off < 0x4000000 →
        (configSize off n = true → ∃ t, ran (.configRead off n) t
          ∧ s.sends t (.completion (((toBytes 8 (s.configWord (off / 8 * 8))).drop (off % 8)).take n) false) ∧ t.port.herr = s.port.herr)
        ∧ (configSize off n = false → (∃ t, ran (.configRead off n) t ∧ s.sends t .abort ∧ t.port.herr = s.port.herr)
            ∧ ∃ t, ran (.configWrite off n) t ∧ s.logs t 1 off ∧ t.port.sent = s.port.sent)
        ∧ ∃ t, ran (.configAtomic off) t ∧ s.sends t .abort ∧ s.logs t 5 off)
      ∧ (off < 0x8000000000 → ∃ t, ran (.memoryAtomic off) t ∧ s.sends t .abort ∧ s.logs t (if s.hostClosed then 4 else 5) off)
      ∧ (off < 0x8000000000 → s.hostClosed = true → ∃ t, ran (.memoryWrite off n) t ∧ s.logs t 4 off ∧ t.port.sent = s.port.sent)
      ∧ (∃ t, ran .identity t ∧ s.sends t (.completion (toBytes 2 Config.vendorId.toNat ++ [0x12, 0x45, 0x00, 0x12]) false))
      ∧ (∀ on, ∃ t, ran (.functionMask on) t ∧ t.port.fmask = on)
      ∧ exec (.hostRefusedRequest (.memoryRead off n)) s = exec (.hostMemoryRead off n) s
      ∧ (off < 0x10000 →
          (∃ t, ran (.tokenWrite off n) t ∧ s.logs t (if s.hostClosed then 4 else 3) off ∧ t.port.sent = s.port.sent)
          ∧ (s.hostClosed = true → ∃ t, ran (.tokenRead off n) t ∧ s.sends t .abort ∧ s.logs t 4 off)
          ∧ (s.hostClosed = false → ¬(n = 8 ∧ off % 8 = 0) → ∃ t, ran (.tokenRead off n) t ∧ s.sends t .abort ∧ t.port.herr = s.port.herr)
          ∧ (s.hostClosed = false → n = 8 → off % 8 = 0 → s.tokenOpen off false = true → s.store.poisoned (s.tokenAddr off % 2 ^ 44) 8 = false →
              ∃ t, ran (.tokenRead off n) t ∧ s.sends t (.completion (toBytes 8 (s.peek (physSpot 0 (s.tokenAddr off % 2 ^ 44)) 8)) false))
          ∧ ∀ add, ¬(add = true ∧ n = 8 ∧ off % 8 = 0) → ∃ t, ran (.tokenAtomic off n add) t ∧ s.sends t .abort ∧ s.logs t (if s.hostClosed then 4 else 5) off))
  ∧ (∀ s : State, let started : State → Prop := fun t => (∀ d < 4, (t.die d).boot = ⟨0, false, 0, 0⟩) ∧ t.store.bytes = [] ∧ t.store.owners = []
        ∧ t.store.keys = [] ∧ t.harts = [Hart.reset ⟨0, 0, 0, 0⟩] ∧ t.engines = Engines.reset ∧ t.port.requests = [] ∧ t.port.busy = false ∧ t.replies = []
        ∧ t.pkgid = 0 ∧ t.store.poison = s.store.poison ∧ t.store.soft = s.store.soft
      let kept : State → Prop := fun t => t.port.featmask = s.port.featmask ∧ t.port.time = s.port.time ∧ t.port.tokbase = s.port.tokbase
        ∧ t.port.hwbase = s.port.hwbase ∧ t.port.herr = s.port.herr ∧ t.port.hapt = s.port.hapt
        ∧ t.retained.map = if (s.die 0).boot.step ≤ 3 then s.retained.map else some s.retirementMap
      (∃ t, exec .rstreqWarm s = .next t ∧ started t ∧ kept t ∧ t.warm = true)
      ∧ (∃ t, exec .rstreqCold s = .next t ∧ started t ∧ kept t ∧ t.warm = false)
      ∧ (∃ t, exec .coldStart s = .next t ∧ started t ∧ t.warm = false ∧ t.retained = s.retained ∧ t.port.featmask = 0 ∧ t.port.hapt = [])
      ∧ exec .hotReset s = .next s)
  ∧ (∀ (r : StartReport) (s : State), let k := (s.die 0).boot.step
      let stepIs : State → Nat → Prop := fun t j => ∀ d < 4, (t.die d).boot.step = j
      ((s.halted = true ∨ 8 ≤ k) → exec (.startupStep r) s = .next s)
      ∧ (s.halted = false → k = 0 → ∃ t, exec (.startupStep r) s = .next t ∧ stepIs t 1 ∧ t.retained.starts = s.retained.starts + 1 ∧ t.store = s.store)
      ∧ (s.halted = false → k ∈ [1, 2, 4, 5, 6, 7] → r.good = false → ∃ t, exec (.startupStep r) s = .next t ∧ t.store = s.store
          ∧ ∀ d < 4, (t.die d).boot.fail = k ∧ (t.die d).boot.detail = if k = 4 then r.detail % 8 else if k = 5 then r.detail % 6 else 0)
      ∧ (s.halted = false → r.good = true → k ∈ [1, 2, 4, 5, 6, 7] →
          (k = 7 → ∀ d < 4, ∀ i < 264, ((s.die d).sensor i).sampled = none) → ∃ t, exec (.startupStep r) s = .next t ∧ stepIs t (k + 1) ∧ t.halted = false
          ∧ (k = 5 → ∀ d < 4, ∀ j < 4, (t.die d).up.getLsbD j = decide (j ≠ d))
          ∧ (k = 6 → (∀ x, t.store.bytes.read x = 0) ∧ t.store.soft = [] ∧ t.store.poison = s.store.poison ∧ (∃ k1 k2, Table.get KeySlot.empty t.store.keys 0 = .loaded k1 k2)
              ∧ ∀ f < 2 ^ 23, Table.get freeOwner t.store.owners f = if f ∈ r.runtimeFrames then 0 else freeOwner)
          ∧ (k = 7 → ∀ d < 4, (∀ i < 264, ((t.die d).sensor i).temp.isSome = true) ∧ ∀ p < 256, (t.pod d p).valid = true))
      ∧ (s.halted = false → k = 3 → s.warm = false → ∃ t, exec (.startupStep r) s = .next t ∧ t.store = s.store
          ∧ (∀ d < 4, ∀ p < 256, ((t.pod d p).retired = true ↔ (d, p) ∈ r.bist
              ∨ (r.mapGood = true ∧ ∃ e ∈ s.retained.map.getD [], e.1 = d ∧ e.2.1 = p ∧ e.2.2 = 3)
              ∨ ((d, p) ∉ r.badRecords ∧ ∃ e ∈ s.retained.records, e.1 = 256 * d + p ∧ e.2.1 = 3)))
          ∧ (t.halted = true ↔ ∃ d < 4, ∃ c < 16, t.livePods d c = []) ∧ (t.halted = false → stepIs t 4)))
  ∧ (∀ (q : HostRead) (qs : List HostRead) (s : State), s.port.requests = q :: qs →
      (∃ t, exec (.hostCompletion none) s = .next t ∧ t.port.requests = qs ∧ t.port.answers = s.port.answers ++ [⟨q.who, q.loc, q.n, none⟩] ∧ t.store = s.store)
      ∧ (∀ bs, bs.length = q.n → ∃ t, exec (.hostCompletion (some bs)) s = .next t ∧ t.port.requests = qs
          ∧ t.port.answers = s.port.answers ++ [⟨q.who, q.loc, q.n, some (ofBytes bs)⟩] ∧ t.store = s.store)
      ∧ (q.cycle + 2400000 ≤ s.cycle → ∃ t, exec .hostRequestTimeout s = .next t ∧ t.port.requests = qs
          ∧ t.port.answers = s.port.answers ++ [⟨q.who, q.loc, q.n, none⟩] ∧ t.store = s.store))
  ∧ (∀ s : State, s.memOk → Table.risingFrom 0 s.port.pba → let message : Nat → Sent := fun v => .message (s.port.msix.readN (16 * v) 8) (s.port.msix.readN (16 * v + 8) 4)
      (∀ v < 2048, ∃ t, exec (.msixUnmask (some v)) s = .next t ∧ t.port.masked v = s.port.fmask ∧ t.store = s.store
        ∧ (Table.get false s.port.pba v = true → s.port.fmask = false → s.sends t (message v) ∧ Table.get false t.port.pba v = false)
        ∧ ((Table.get false s.port.pba v = false ∨ s.port.fmask = true) → t.port.sent = s.port.sent ∧ t.port.pba = s.port.pba))
      ∧ ∃ t, exec (.msixUnmask none) s = .next t ∧ t.port.fmask = false ∧ t.store = s.store ∧ ∀ v,
          (Table.get false t.port.pba v = true ↔ Table.get false s.port.pba v = true ∧ (s.port.msix.read (16 * v + 12)).getLsbD 0 = false)
          ∧ (Table.get false s.port.pba v = true → (s.port.msix.read (16 * v + 12)).getLsbD 0 = true → message v ∈ t.port.sent))

/-! ### Mailbox events -/

/-- The mailbox holds a command that is not yet carried out (R60). -/
def Sys2Proof.Machine.State.asked (s : State) (code : Nat) : Prop :=
  s.port.busy = true ∧ s.port.mbdone = false ∧ s.port.mbcmd.toNat = code

/-- The command has ended with a status and a response of `n` bytes; BUSY falls with MAILBOX_DONE. -/
def Sys2Proof.Machine.State.answered (t : State) (status n : Nat) : Prop :=
  t.port.mbresult = (status, n) ∧ t.port.mbdone = true ∧ t.port.busy = true

/-- The mailbox commands are carried out (R59-R70): each gives NOTREADY below STEP 8, and the status of R61 that applies first, without an effect; else
KEYLOAD loads a slot, RELEASE empties it and answers with the receipt, AUDSET sets a range, AUDLOG opens a log with its first record, CHECKPT writes a checkpoint
or queues it, ATTEST and IDENT answer with quote and keys. An interval of a log ends; what waits is written when there is room.
What a release scrubs and in which order (log 37), the audit rings (log 38), the standards (log 26) and the secrets (log 10) are the model's. -/
def Obligations.MailboxEvents : Prop :=
  (∀ (s : State) (p : Instr × Nat), p ∈ [(Instr.keyload, 1), (.release, 2), (.audset, 3), (.audlog, 4), (.checkpt, 5), (.attest, 6), (.ident, 7)] →
      (s.asked p.2 → (s.die 0).boot.step < 8 → ∃ t, exec p.1 s = .next t ∧ t.answered 8 0 ∧ t.store = s.store ∧ t.port.mbdata = s.port.mbdata)
      ∧ (¬s.asked p.2 → exec p.1 s = .next s))
  ∧ (∀ s : State, (s.port.busy = true → s.port.mbdone = true → exec .mailboxDone s = .next { s with port := { s.port with busy := false, mbdone := false } })
      ∧ (s.port.busy = true → s.port.mbdone = false → (s.port.mbcmd = 0 ∨ 7 < s.port.mbcmd.toNat) → ∃ t, exec .badcmd s = .next t ∧ t.answered 1 0
          ∧ t.store = s.store ∧ t.port.mbdata = s.port.mbdata))
  ∧ (∀ s : State, s.memOk → 8 ≤ (s.die 0).boot.step → let q := s.port
      let ends : Instr → Nat → Prop := fun i status => ∃ t, exec i s = .next t ∧ t.answered status 0 ∧ t.store = s.store ∧ t.dies = s.dies ∧ t.engines = s.engines
      (s.asked 1 → let k := q.arg 0 1
        let key := unwrapBlob s.retained.starts k (q.mbdata.readBytes 8 104)
        ((k = 0 ∨ Table.get KeySlot.empty s.store.keys k ≠ .empty) → ends .keyload 3)
        ∧ (k ≠ 0 → Table.get KeySlot.empty s.store.keys k = .empty →
            (key = none → ends .keyload 4) ∧ (∀ k1, key = some (k1, k1) → ends .keyload 5)
            ∧ (∀ k1 k2, key = some (k1, k2) → k1 ≠ k2 → ∃ t, exec .keyload s = .next t ∧ t.answered 0 0 ∧ t.store.bytes = s.store.bytes
                ∧ Table.get KeySlot.empty t.store.keys k = .loaded k1 k2
                ∧ ∀ j, j ≠ k → Table.get KeySlot.empty t.store.keys j = Table.get KeySlot.empty s.store.keys j)))
      ∧ (s.asked 2 → let k := q.arg 0 1
          (s.physOk (q.arg 8 8) 8 = false → ends .release 2)
          ∧ (s.physOk (q.arg 8 8) 8 = true → (k = 0 ∨ s.store.keyLoaded k = false) → ends .release 3)
          ∧ (s.physOk (q.arg 8 8) 8 = true → k ≠ 0 → s.store.keyLoaded k = true → s.keyInUse k = true → ends .release 6)
          ∧ (s.physOk (q.arg 8 8) 8 = true → k ≠ 0 → s.store.keyLoaded k = true → s.keyInUse k = false →
              (s.firmwareHeld 0 (q.arg 8 8) (q.arg 16 8) = true → exec .release s = .next s)
              ∧ ∀ r, s.firmwareHeld 0 (q.arg 8 8) (q.arg 16 8) = false → unbindAll s (s.engines.attached.filter fun a => a.slot.toNat = k) = r →
              (∀ w s1, r = .stall w s1 → exec .release s = .next s1)
              ∧ ∀ s1, r = .ok () s1 → Table.risingFrom 0 s1.store.keys →
              ∃ t, exec .release s = .next t ∧ (t.answered 0 264 ∨ t.answered 7 264) ∧ Table.get KeySlot.empty t.store.keys k = .empty
                ∧ (∀ h : HartId, (s1.hart h).occ = .empty → (s1.hart h).base.key.toNat = k → t.hart h = Hart.reset h)
                ∧ (∀ a ∈ t.engines.attached, a.slot.toNat ≠ k) ∧ t.retained.releases = s1.retained.releases + 1
                ∧ t.port.mbdata.readN 0 4 = 0x52435352 ∧ t.port.mbdata.readN 6 1 = k
                ∧ t.port.mbdata.readN 8 8 = (s1.retained.releases + 1) % 2 ^ 64 ∧ t.port.mbdata.readN 16 8 = s1.port.time.toNat))
      ∧ (s.asked 3 → let i := q.arg 0 2
          let k := q.arg 2 1
          let en := q.arg 3 1
          let fit := i ≤ 1023 ∧ en ≤ 1 ∧ q.arg 8 8 % 0x10000 = 0 ∧ q.arg 16 8 % 0x10000 = 0 ∧ q.arg 8 8 < q.arg 16 8 ∧ q.arg 16 8 ≤ 2 ^ 44
          let may : Res Bool := if en = 1 then s.mayEnable i else .ok true s
          let fails : Nat → State → Prop := fun status s1 => ∃ t, exec .audset s = .next t ∧ t.answered status 0 ∧ t.store = s1.store ∧ t.dies = s1.dies
          (¬fit → ends .audset 2)
          ∧ (∀ s1, fit → may = .ok false s1 → fails 2 s1)
          ∧ (∀ w s1, fit → may = .stall w s1 → exec .audset s = .next s1)
          ∧ (∀ s1, fit → may = .ok true s1 → (k = 0 → fails 3 s1)
              ∧ (k ≠ 0 → ∃ t, exec .audset s = .next t ∧ t.answered 0 0
                  ∧ t.range i = ⟨BitVec.ofNat 8 k, en = 1, q.arg 8 8, q.arg 16 8, Vector.replicate 10 0, 0, 0, false⟩)))
      ∧ (s.asked 4 → let d := q.arg 0 1
          let us := q.arg 4 4
          let ring := q.arg 8 8
          let fit := d ≤ 3 ∧ us ≠ 0 ∧ us ≤ 1000000 ∧ ringLength (q.arg 16 4) = true ∧ s.physOk ring 256 = true ∧ s.physOk (q.arg 24 8) 8 = true
          let s1 := s.closeLog d
          let waits : Bool := (s1.die d).log.any (fun l => l.pending.contains .checkpoint) || s1.firmwareHeld d ring 256
          (¬fit → ends .audlog 2)
          ∧ (fit → waits = true → exec .audlog s = .next s1)
          ∧ (fit → waits = false → ∃ t l, exec .audlog s = .next t ∧ t.answered 0 0 ∧ (t.die d).log = some l ∧ l.seq = 1 ∧ l.mark = 0 ∧ l.interval = us
              ∧ l.due = s.cycle + us * 2400 ∧ l.ring = ring ∧ l.len = q.arg 16 4 ∧ l.consumer = q.arg 24 8
              ∧ ((s.die d).log = none → s.store.keyLoaded 0 = true → spaceOf (ring % 2 ^ 44) = .hbm →
                  s.store.ownerOf (ring % 2 ^ 44) = 0 → s.store.poisoned (ring % 2 ^ 44) 256 = false → s.engineHit (ring % 2 ^ 44) 256 = [] → let rec_ := ring % 2 ^ 44
                  t.store.bytes.readN rec_ 8 = 0 ∧ t.store.bytes.readN (rec_ + 8) 2 = 2 ∧ t.store.bytes.readN (rec_ + 13) 1 = d
                    ∧ t.store.bytes.readN (rec_ + 16) 64 = 0 ∧ t.store.bytes.readN (rec_ + 80) 8 = s.port.time.toNat)))
      ∧ (s.asked 5 → let d := q.arg 0 1
          ((3 < d ∨ (s.die d).log = none) → ends .checkpt 2)
          ∧ (∀ l, d ≤ 3 → (s.die d).log = some l → l.pending = [] →
              let s0 := s.onLog d fun l => { l with pending := [.checkpoint] }
              (∀ s1, s0.logRoom d = .ok true s1 → ∃ t l', exec .checkpt s = .next t ∧ t.answered 0 0 ∧ (t.die d).log = some l' ∧ l'.seq = l.seq + 1
                ∧ l'.mark = l.seq + 1 ∧ l'.pending = [])
              ∧ (∀ s1 w, (s0.logRoom d = .ok false s1 ∨ s0.logRoom d = .stall w s1) → ∃ t, exec .checkpt s = .next t ∧ t.answered 0 0 ∧ (t.die d).log = some { l with pending := [.checkpoint] })))
      ∧ (s.asked 6 → ∃ t, exec .attest s = .next t ∧ t.answered 0 256 ∧ t.store = s.store ∧ t.port.mbdata.readN 0 4 = 0x54514D5A
          ∧ t.port.mbdata.readN 6 2 = s.pkgid.toNat ∧ t.port.mbdata.readN 8 8 = s.port.time.toNat
          ∧ t.port.mbdata.readBytes 16 32 = q.mbdata.readBytes 0 32 ∧ t.port.mbdata.readN 116 4 = s.retained.starts % 2 ^ 32
          ∧ t.port.mbdata.readBytes 128 32 = devPub)
      ∧ (s.asked 7 → ∃ t, exec .ident s = .next t ∧ t.answered 0 (136 + (Config.certificate.take 3960).length) ∧ t.store = s.store
          ∧ t.port.mbdata.readBytes 0 32 = devPub ∧ t.port.mbdata.readBytes 32 32 = s.wrapPub))
  ∧ (∀ (d : Nat) (s : State),
      ((s.die d).log = none → exec (.auditInterval d) s = .next s ∧ exec (.auditPendingWrite d) s = .next s)
      ∧ (∀ l, (s.die d).log = some l →
          (s.cycle < l.due → exec (.auditInterval d) s = .next s)
          ∧ (l.due ≤ s.cycle → ∃ t l', exec (.auditInterval d) s = .next t ∧ (t.die d).log = some l' ∧ l'.due = l.due + l.interval * 2400
              ∧ ∀ i, i / 256 = d % 4 → t.range i = { s.range i with changed := (s.range i).changed && !(s.range i).enable })
          ∧ (∀ s1 w, (s.logRoom d = .ok false s1 ∨ s.logRoom d = .stall w s1) ∨ l.pending = [] → ∃ t, exec (.auditPendingWrite d) s = .next t ∧ (t.die d).log = some l)
          ∧ (∀ p s1, s.logRoom d = .ok true s1 → l.pending = [p] → 1 ≤ l.seq → l.mark ≤ l.seq → l.ranges % 4096 ≠ 4095 → ∃ t l', exec (.auditPendingWrite d) s = .next t
              ∧ (t.die d).log = some l' ∧ l'.seq = l.seq + 1 ∧ l'.pending = [])))
end

