-- ==== Sys2Proof/Laws/Mem.lean ====
section
/-! SUPPORT. The memory and the tables: a read after a write, and the canonical form that every operation keeps. -/

namespace Sys2Proof.Machine

/-! ### Read after write -/

theorem Mem.read_of_wfFrom_lt {m : Mem} {lo a : Nat} (h : Mem.wfFrom lo m) (ha : a < lo) : Mem.read m a = 0 := by
  cases m with
  | nil => rfl
  | cons c m =>
    simp only [Mem.wfFrom, Bool.and_eq_true, decide_eq_true_eq] at h
    simp only [Mem.read]
    rw [if_pos (by omega)]

theorem Mem.wfFrom_mono {m : Mem} {lo lo' : Nat} (h : Mem.wfFrom lo m) (hl : lo' ≤ lo) : Mem.wfFrom lo' m := by
  cases m with
  | nil => rfl
  | cons c m =>
    simp only [Mem.wfFrom, Bool.and_eq_true, decide_eq_true_eq] at h ⊢
    exact ⟨⟨by omega, h.1.2⟩, h.2⟩

theorem Mem.read_write_same (m : Mem) (a : Nat) (b : Byte) : ∀ {lo}, Mem.wfFrom lo m → Mem.read (Mem.write m a b) a = b := by
  induction m with
  | nil => intro lo _; unfold Mem.write; split <;> simp_all [Mem.read]
  | cons c m ih =>
    intro lo h
    simp only [Mem.wfFrom, Bool.and_eq_true, decide_eq_true_eq] at h
    unfold Mem.write
    split
    · split <;> simp_all [Mem.read]
    · split
      · split
        · subst_vars
          exact Mem.read_of_wfFrom_lt h.2 (by omega)
        · simp [Mem.read]
      · simp only [Mem.read]
        rw [if_neg (by omega), if_neg (by assumption)]
        exact ih h.2

theorem Mem.read_write_other (m : Mem) (a x : Nat) (b : Byte) (hx : x ≠ a) :
    ∀ {lo}, Mem.wfFrom lo m → Mem.read (Mem.write m a b) x = Mem.read m x := by
  induction m with
  | nil => intro lo _; unfold Mem.write; split <;> simp [Mem.read]; omega
  | cons c m ih =>
    intro lo h
    simp only [Mem.wfFrom, Bool.and_eq_true, decide_eq_true_eq] at h
    unfold Mem.write
    split
    · split
      · rfl
      · simp only [Mem.read]
        split
        · rw [if_pos (by omega)]
        · rw [if_neg (by omega)]
    · split
      · split
        · subst_vars
          simp only [Mem.read]
          split
          · exact Mem.read_of_wfFrom_lt h.2 (by omega)
          · rw [if_neg (by omega)]
        · simp only [Mem.read]
          subst_vars
          rw [if_neg (by omega : ¬ c.1 = x), if_neg (by omega : ¬ c.1 = x)]
      · simp only [Mem.read]
        rw [ih h.2]

/-! ### The canonical form -/

theorem Mem.wfFrom_write {m : Mem} {a : Nat} (b : Byte) : ∀ {lo}, Mem.wfFrom lo m → lo ≤ a → Mem.wfFrom lo (Mem.write m a b) := by
  induction m with
  | nil => intro lo _ ha; unfold Mem.write; split <;> simp_all [Mem.wfFrom]
  | cons c m ih =>
    intro lo h ha
    simp only [Mem.wfFrom, Bool.and_eq_true, decide_eq_true_eq, bne_iff_ne, ne_eq] at h
    unfold Mem.write
    split
    · split
      · simp only [Mem.wfFrom, Bool.and_eq_true, decide_eq_true_eq, bne_iff_ne, ne_eq]; exact h
      · simp only [Mem.wfFrom, Bool.and_eq_true, decide_eq_true_eq, bne_iff_ne, ne_eq]
        exact ⟨⟨ha, by assumption⟩, ⟨⟨by omega, h.1.2⟩, h.2⟩⟩
    · split
      · split
        · exact Mem.wfFrom_mono h.2 (by omega)
        · subst_vars
          simp only [Mem.wfFrom, Bool.and_eq_true, decide_eq_true_eq, bne_iff_ne, ne_eq]
          exact ⟨⟨ha, by assumption⟩, h.2⟩
      · simp only [Mem.wfFrom, Bool.and_eq_true, decide_eq_true_eq, bne_iff_ne, ne_eq]
        exact ⟨h.1, ih h.2 (by omega)⟩

theorem Mem.wf_write {m : Mem} (h : m.wf) (a : Nat) (b : Byte) : (Mem.write m a b).wf := Mem.wfFrom_write b h (Nat.zero_le a)

theorem Mem.wf_writeN {m : Mem} (h : m.wf) (a n v : Nat) : (Mem.writeN m a n v).wf := by
  induction n generalizing m a v with
  | zero => exact h
  | succ n ih => exact ih (Mem.wf_write h a _) _ _

theorem Mem.wf_writeBytes {m : Mem} (h : m.wf) (a : Nat) (bs : List Byte) : (Mem.writeBytes m a bs).wf := by
  induction bs generalizing m a with
  | nil => exact h
  | cons b bs ih => exact ih (Mem.wf_write h a b) _

theorem Mem.wfFrom_filter {m : Mem} (p : Host.Cell → Bool) : ∀ {lo}, Mem.wfFrom lo m → Mem.wfFrom lo (m.filter p) := by
  induction m with
  | nil => intro lo h; exact h
  | cons c m ih =>
    intro lo h
    simp only [Mem.wfFrom, Bool.and_eq_true, decide_eq_true_eq, bne_iff_ne, ne_eq] at h
    rw [List.filter_cons]
    split
    · simp only [Mem.wfFrom, Bool.and_eq_true, decide_eq_true_eq, bne_iff_ne, ne_eq]
      exact ⟨h.1, ih h.2⟩
    · exact Mem.wfFrom_mono (ih h.2) (by omega)

theorem Mem.wf_zero {m : Mem} (h : m.wf) (lo hi : Nat) : (m.zero lo hi).wf := Mem.wfFrom_filter _ h

theorem Mem.wf_copyRange {m : Mem} (h : m.wf) (src dst n : Nat) : (m.copyRange src dst n).wf := by
  unfold Mem.copyRange
  generalize m.filter _ = l
  induction l generalizing m with
  | nil => exact h
  | cons c l ih => exact ih (Mem.wf_write h _ _)

theorem Mem.wf_nil : Mem.wf [] := rfl

theorem State.reset_wf : State.reset.store.bytes.wf := rfl

/-- The byte that a write of `n` bytes leaves alone. -/
theorem Mem.read_writeN_other {m : Mem} (h : m.wf) (a n v x : Nat) (hx : x < a ∨ a + n ≤ x) :
    Mem.read (Mem.writeN m a n v) x = Mem.read m x := by
  induction n generalizing m a v with
  | zero => rfl
  | succ n ih =>
    rw [Mem.writeN, ih (Mem.wf_write h _ _) _ _ (by omega)]
    exact Mem.read_write_other m a x _ (by omega) h

/-- The bytes that a write of `n` bytes leaves. -/
theorem Mem.read_writeN_inside {m : Mem} (h : m.wf) (a n v i : Nat) (hi : i < n) :
    Mem.read (Mem.writeN m a n v) (a + i) = BitVec.ofNat 8 (v / 256 ^ i) := by
  induction n generalizing m a v i with
  | zero => omega
  | succ n ih =>
    rw [Mem.writeN]
    cases i with
    | zero =>
      rw [Mem.read_writeN_other (Mem.wf_write h _ _) _ _ _ _ (by omega)]
      simpa using Mem.read_write_same m a _ h
    | succ i =>
      rw [show a + (i + 1) = a + 1 + i by omega, ih (Mem.wf_write h _ _) _ _ _ (by omega)]
      rw [Nat.div_div_eq_div_mul, Nat.pow_succ, Nat.mul_comm]

/-! ### Tables -/

theorem Table.get_of_rising_lt {α : Type} (d : α) {t : Table α} {lo k : Nat} (h : Table.risingFrom lo t) (hk : k < lo) :
    Table.get d t k = d := by
  cases t with
  | nil => rfl
  | cons c t =>
    have hc : lo ≤ c.1 := h.1
    simp only [Table.get]
    rw [if_pos (by omega)]

theorem Table.get_set_same {α : Type} [DecidableEq α] (d : α) (t : Table α) (k : Nat) (x : α) :
    ∀ {lo}, Table.risingFrom lo t → Table.get d (Table.set d t k x) k = x := by
  induction t with
  | nil => intro lo _; unfold Table.set; split <;> simp_all [Table.get]
  | cons c t ih =>
    intro lo h
    unfold Table.set
    split
    · split <;> simp_all [Table.get]
    · split
      · split
        · subst_vars
          exact Table.get_of_rising_lt _ h.2 (Nat.lt_succ_self _)
        · simp [Table.get]
      · simp only [Table.get]
        rw [if_neg (by omega), if_neg (by assumption)]
        exact ih h.2

/-- Setting an entry to another value than the default: what each key then reads. -/
theorem Table.get_set {α : Type} [DecidableEq α] (d : α) (t : Table α) (k j : Nat) (x : α) (hx : x ≠ d) :
    Table.get d (Table.set d t k x) j = if j = k then x else Table.get d t j := by
  induction t with
  | nil => simp only [Table.set, hx, if_false, Table.get]; grind
  | cons c t ih =>
    simp only [Table.set, hx, if_false]
    split
    · simp only [Table.get]; grind
    · split
      · simp only [Table.get]; grind
      · simp only [Table.get, ih]; grind

end Sys2Proof.Machine
end

