-- ==== Sys2Proof/Laws/State.lean ====
section
/-! SUPPORT. One lemma for each field of the state and each update of it, so that no proof unfolds a record update; the general
registers. -/

namespace Sys2Proof.Machine

/-! `onCur` -/

@[simp] theorem State.onCur_cur (s : State) (f : Hart → Hart) : (s.onCur f).cur = f s.cur := rfl
@[simp] theorem State.onCur_others (s : State) (f : Hart → Hart) : (s.onCur f).others = s.others := rfl
@[simp] theorem State.onCur_replies (s : State) (f : Hart → Hart) : (s.onCur f).replies = s.replies := rfl
@[simp] theorem State.onCur_cores (s : State) (f : Hart → Hart) : (s.onCur f).cores = s.cores := rfl
@[simp] theorem State.onCur_clusters (s : State) (f : Hart → Hart) : (s.onCur f).clusters = s.clusters := rfl
@[simp] theorem State.onCur_dies (s : State) (f : Hart → Hart) : (s.onCur f).dies = s.dies := rfl
@[simp] theorem State.onCur_store (s : State) (f : Hart → Hart) : (s.onCur f).store = s.store := rfl
@[simp] theorem State.onCur_engines (s : State) (f : Hart → Hart) : (s.onCur f).engines = s.engines := rfl
@[simp] theorem State.onCur_port (s : State) (f : Hart → Hart) : (s.onCur f).port = s.port := rfl
@[simp] theorem State.onCur_retained (s : State) (f : Hart → Hart) : (s.onCur f).retained = s.retained := rfl
@[simp] theorem State.onCur_pkgid (s : State) (f : Hart → Hart) : (s.onCur f).pkgid = s.pkgid := rfl
@[simp] theorem State.onCur_links (s : State) (f : Hart → Hart) : (s.onCur f).links = s.links := rfl
@[simp] theorem State.onCur_warm (s : State) (f : Hart → Hart) : (s.onCur f).warm = s.warm := rfl
@[simp] theorem State.onCur_cycle (s : State) (f : Hart → Hart) : (s.onCur f).cycle = s.cycle := rfl
@[simp] theorem State.onCur_nextUid (s : State) (f : Hart → Hart) : (s.onCur f).nextUid = s.nextUid := rfl
@[simp] theorem State.onCur_rounds (s : State) (f : Hart → Hart) : (s.onCur f).rounds = s.rounds := rfl
@[simp] theorem State.onCur_agenda (s : State) (f : Hart → Hart) : (s.onCur f).agenda = s.agenda := rfl
@[simp] theorem State.onCur_turn (s : State) (f : Hart → Hart) : (s.onCur f).turn = s.turn := rfl
@[simp] theorem State.onCur_free (s : State) (f : Hart → Hart) : (s.onCur f).free = s.free := rfl

/-! `onStore` -/

@[simp] theorem State.onStore_cur (s : State) (f : Store → Store) : (s.onStore f).cur = s.cur := rfl
@[simp] theorem State.onStore_others (s : State) (f : Store → Store) : (s.onStore f).others = s.others := rfl
@[simp] theorem State.onStore_replies (s : State) (f : Store → Store) : (s.onStore f).replies = s.replies := rfl
@[simp] theorem State.onStore_cores (s : State) (f : Store → Store) : (s.onStore f).cores = s.cores := rfl
@[simp] theorem State.onStore_clusters (s : State) (f : Store → Store) : (s.onStore f).clusters = s.clusters := rfl
@[simp] theorem State.onStore_dies (s : State) (f : Store → Store) : (s.onStore f).dies = s.dies := rfl
@[simp] theorem State.onStore_store (s : State) (f : Store → Store) : (s.onStore f).store = f s.store := rfl
@[simp] theorem State.onStore_engines (s : State) (f : Store → Store) : (s.onStore f).engines = s.engines := rfl
@[simp] theorem State.onStore_port (s : State) (f : Store → Store) : (s.onStore f).port = s.port := rfl
@[simp] theorem State.onStore_retained (s : State) (f : Store → Store) : (s.onStore f).retained = s.retained := rfl
@[simp] theorem State.onStore_pkgid (s : State) (f : Store → Store) : (s.onStore f).pkgid = s.pkgid := rfl
@[simp] theorem State.onStore_links (s : State) (f : Store → Store) : (s.onStore f).links = s.links := rfl
@[simp] theorem State.onStore_warm (s : State) (f : Store → Store) : (s.onStore f).warm = s.warm := rfl
@[simp] theorem State.onStore_cycle (s : State) (f : Store → Store) : (s.onStore f).cycle = s.cycle := rfl
@[simp] theorem State.onStore_nextUid (s : State) (f : Store → Store) : (s.onStore f).nextUid = s.nextUid := rfl
@[simp] theorem State.onStore_rounds (s : State) (f : Store → Store) : (s.onStore f).rounds = s.rounds := rfl
@[simp] theorem State.onStore_agenda (s : State) (f : Store → Store) : (s.onStore f).agenda = s.agenda := rfl
@[simp] theorem State.onStore_turn (s : State) (f : Store → Store) : (s.onStore f).turn = s.turn := rfl
@[simp] theorem State.onStore_free (s : State) (f : Store → Store) : (s.onStore f).free = s.free := rfl

/-! `onEngines` -/

@[simp] theorem State.onEngines_cur (s : State) (f : Engines → Engines) : (s.onEngines f).cur = s.cur := rfl
@[simp] theorem State.onEngines_others (s : State) (f : Engines → Engines) : (s.onEngines f).others = s.others := rfl
@[simp] theorem State.onEngines_replies (s : State) (f : Engines → Engines) : (s.onEngines f).replies = s.replies := rfl
@[simp] theorem State.onEngines_cores (s : State) (f : Engines → Engines) : (s.onEngines f).cores = s.cores := rfl
@[simp] theorem State.onEngines_clusters (s : State) (f : Engines → Engines) : (s.onEngines f).clusters = s.clusters := rfl
@[simp] theorem State.onEngines_dies (s : State) (f : Engines → Engines) : (s.onEngines f).dies = s.dies := rfl
@[simp] theorem State.onEngines_store (s : State) (f : Engines → Engines) : (s.onEngines f).store = s.store := rfl
@[simp] theorem State.onEngines_engines (s : State) (f : Engines → Engines) : (s.onEngines f).engines = f s.engines := rfl
@[simp] theorem State.onEngines_port (s : State) (f : Engines → Engines) : (s.onEngines f).port = s.port := rfl
@[simp] theorem State.onEngines_retained (s : State) (f : Engines → Engines) : (s.onEngines f).retained = s.retained := rfl
@[simp] theorem State.onEngines_pkgid (s : State) (f : Engines → Engines) : (s.onEngines f).pkgid = s.pkgid := rfl
@[simp] theorem State.onEngines_links (s : State) (f : Engines → Engines) : (s.onEngines f).links = s.links := rfl
@[simp] theorem State.onEngines_warm (s : State) (f : Engines → Engines) : (s.onEngines f).warm = s.warm := rfl
@[simp] theorem State.onEngines_cycle (s : State) (f : Engines → Engines) : (s.onEngines f).cycle = s.cycle := rfl
@[simp] theorem State.onEngines_nextUid (s : State) (f : Engines → Engines) : (s.onEngines f).nextUid = s.nextUid := rfl
@[simp] theorem State.onEngines_rounds (s : State) (f : Engines → Engines) : (s.onEngines f).rounds = s.rounds := rfl
@[simp] theorem State.onEngines_agenda (s : State) (f : Engines → Engines) : (s.onEngines f).agenda = s.agenda := rfl
@[simp] theorem State.onEngines_turn (s : State) (f : Engines → Engines) : (s.onEngines f).turn = s.turn := rfl
@[simp] theorem State.onEngines_free (s : State) (f : Engines → Engines) : (s.onEngines f).free = s.free := rfl

/-! `onPort` -/

@[simp] theorem State.onPort_cur (s : State) (f : Port0 → Port0) : (s.onPort f).cur = s.cur := rfl
@[simp] theorem State.onPort_others (s : State) (f : Port0 → Port0) : (s.onPort f).others = s.others := rfl
@[simp] theorem State.onPort_replies (s : State) (f : Port0 → Port0) : (s.onPort f).replies = s.replies := rfl
@[simp] theorem State.onPort_cores (s : State) (f : Port0 → Port0) : (s.onPort f).cores = s.cores := rfl
@[simp] theorem State.onPort_clusters (s : State) (f : Port0 → Port0) : (s.onPort f).clusters = s.clusters := rfl
@[simp] theorem State.onPort_dies (s : State) (f : Port0 → Port0) : (s.onPort f).dies = s.dies := rfl
@[simp] theorem State.onPort_store (s : State) (f : Port0 → Port0) : (s.onPort f).store = s.store := rfl
@[simp] theorem State.onPort_engines (s : State) (f : Port0 → Port0) : (s.onPort f).engines = s.engines := rfl
@[simp] theorem State.onPort_port (s : State) (f : Port0 → Port0) : (s.onPort f).port = f s.port := rfl
@[simp] theorem State.onPort_retained (s : State) (f : Port0 → Port0) : (s.onPort f).retained = s.retained := rfl
@[simp] theorem State.onPort_pkgid (s : State) (f : Port0 → Port0) : (s.onPort f).pkgid = s.pkgid := rfl
@[simp] theorem State.onPort_links (s : State) (f : Port0 → Port0) : (s.onPort f).links = s.links := rfl
@[simp] theorem State.onPort_warm (s : State) (f : Port0 → Port0) : (s.onPort f).warm = s.warm := rfl
@[simp] theorem State.onPort_cycle (s : State) (f : Port0 → Port0) : (s.onPort f).cycle = s.cycle := rfl
@[simp] theorem State.onPort_nextUid (s : State) (f : Port0 → Port0) : (s.onPort f).nextUid = s.nextUid := rfl
@[simp] theorem State.onPort_rounds (s : State) (f : Port0 → Port0) : (s.onPort f).rounds = s.rounds := rfl
@[simp] theorem State.onPort_agenda (s : State) (f : Port0 → Port0) : (s.onPort f).agenda = s.agenda := rfl
@[simp] theorem State.onPort_turn (s : State) (f : Port0 → Port0) : (s.onPort f).turn = s.turn := rfl
@[simp] theorem State.onPort_free (s : State) (f : Port0 → Port0) : (s.onPort f).free = s.free := rfl

/-! `onDie` -/

@[simp] theorem State.onDie_cur (s : State) (d : Nat) (f : Die → Die) : (s.onDie d f).cur = s.cur := rfl
@[simp] theorem State.onDie_others (s : State) (d : Nat) (f : Die → Die) : (s.onDie d f).others = s.others := rfl
@[simp] theorem State.onDie_replies (s : State) (d : Nat) (f : Die → Die) : (s.onDie d f).replies = s.replies := rfl
@[simp] theorem State.onDie_cores (s : State) (d : Nat) (f : Die → Die) : (s.onDie d f).cores = s.cores := rfl
@[simp] theorem State.onDie_clusters (s : State) (d : Nat) (f : Die → Die) : (s.onDie d f).clusters = s.clusters := rfl
@[simp] theorem State.onDie_store (s : State) (d : Nat) (f : Die → Die) : (s.onDie d f).store = s.store := rfl
@[simp] theorem State.onDie_engines (s : State) (d : Nat) (f : Die → Die) : (s.onDie d f).engines = s.engines := rfl
@[simp] theorem State.onDie_port (s : State) (d : Nat) (f : Die → Die) : (s.onDie d f).port = s.port := rfl
@[simp] theorem State.onDie_retained (s : State) (d : Nat) (f : Die → Die) : (s.onDie d f).retained = s.retained := rfl
@[simp] theorem State.onDie_pkgid (s : State) (d : Nat) (f : Die → Die) : (s.onDie d f).pkgid = s.pkgid := rfl
@[simp] theorem State.onDie_links (s : State) (d : Nat) (f : Die → Die) : (s.onDie d f).links = s.links := rfl
@[simp] theorem State.onDie_warm (s : State) (d : Nat) (f : Die → Die) : (s.onDie d f).warm = s.warm := rfl
@[simp] theorem State.onDie_cycle (s : State) (d : Nat) (f : Die → Die) : (s.onDie d f).cycle = s.cycle := rfl
@[simp] theorem State.onDie_nextUid (s : State) (d : Nat) (f : Die → Die) : (s.onDie d f).nextUid = s.nextUid := rfl
@[simp] theorem State.onDie_rounds (s : State) (d : Nat) (f : Die → Die) : (s.onDie d f).rounds = s.rounds := rfl
@[simp] theorem State.onDie_agenda (s : State) (d : Nat) (f : Die → Die) : (s.onDie d f).agenda = s.agenda := rfl
@[simp] theorem State.onDie_turn (s : State) (d : Nat) (f : Die → Die) : (s.onDie d f).turn = s.turn := rfl
@[simp] theorem State.onDie_free (s : State) (d : Nat) (f : Die → Die) : (s.onDie d f).free = s.free := rfl

/-! `onCluster` -/

@[simp] theorem State.onCluster_cur (s : State) (d c : Nat) (f : Cluster → Cluster) : (s.onCluster d c f).cur = s.cur := rfl
@[simp] theorem State.onCluster_others (s : State) (d c : Nat) (f : Cluster → Cluster) : (s.onCluster d c f).others = s.others := rfl
@[simp] theorem State.onCluster_replies (s : State) (d c : Nat) (f : Cluster → Cluster) : (s.onCluster d c f).replies = s.replies := rfl
@[simp] theorem State.onCluster_cores (s : State) (d c : Nat) (f : Cluster → Cluster) : (s.onCluster d c f).cores = s.cores := rfl
@[simp] theorem State.onCluster_dies (s : State) (d c : Nat) (f : Cluster → Cluster) : (s.onCluster d c f).dies = s.dies := rfl
@[simp] theorem State.onCluster_store (s : State) (d c : Nat) (f : Cluster → Cluster) : (s.onCluster d c f).store = s.store := rfl
@[simp] theorem State.onCluster_engines (s : State) (d c : Nat) (f : Cluster → Cluster) : (s.onCluster d c f).engines = s.engines := rfl
@[simp] theorem State.onCluster_port (s : State) (d c : Nat) (f : Cluster → Cluster) : (s.onCluster d c f).port = s.port := rfl
@[simp] theorem State.onCluster_retained (s : State) (d c : Nat) (f : Cluster → Cluster) : (s.onCluster d c f).retained = s.retained := rfl
@[simp] theorem State.onCluster_pkgid (s : State) (d c : Nat) (f : Cluster → Cluster) : (s.onCluster d c f).pkgid = s.pkgid := rfl
@[simp] theorem State.onCluster_links (s : State) (d c : Nat) (f : Cluster → Cluster) : (s.onCluster d c f).links = s.links := rfl
@[simp] theorem State.onCluster_warm (s : State) (d c : Nat) (f : Cluster → Cluster) : (s.onCluster d c f).warm = s.warm := rfl
@[simp] theorem State.onCluster_cycle (s : State) (d c : Nat) (f : Cluster → Cluster) : (s.onCluster d c f).cycle = s.cycle := rfl
@[simp] theorem State.onCluster_nextUid (s : State) (d c : Nat) (f : Cluster → Cluster) : (s.onCluster d c f).nextUid = s.nextUid := rfl
@[simp] theorem State.onCluster_rounds (s : State) (d c : Nat) (f : Cluster → Cluster) : (s.onCluster d c f).rounds = s.rounds := rfl
@[simp] theorem State.onCluster_agenda (s : State) (d c : Nat) (f : Cluster → Cluster) : (s.onCluster d c f).agenda = s.agenda := rfl
@[simp] theorem State.onCluster_turn (s : State) (d c : Nat) (f : Cluster → Cluster) : (s.onCluster d c f).turn = s.turn := rfl
@[simp] theorem State.onCluster_free (s : State) (d c : Nat) (f : Cluster → Cluster) : (s.onCluster d c f).free = s.free := rfl

/-! `onCore` -/

@[simp] theorem State.onCore_cur (s : State) (k : CoreId) (f : Core → Core) : (s.onCore k f).cur = s.cur := rfl
@[simp] theorem State.onCore_others (s : State) (k : CoreId) (f : Core → Core) : (s.onCore k f).others = s.others := rfl
@[simp] theorem State.onCore_replies (s : State) (k : CoreId) (f : Core → Core) : (s.onCore k f).replies = s.replies := rfl
@[simp] theorem State.onCore_clusters (s : State) (k : CoreId) (f : Core → Core) : (s.onCore k f).clusters = s.clusters := rfl
@[simp] theorem State.onCore_dies (s : State) (k : CoreId) (f : Core → Core) : (s.onCore k f).dies = s.dies := rfl
@[simp] theorem State.onCore_store (s : State) (k : CoreId) (f : Core → Core) : (s.onCore k f).store = s.store := rfl
@[simp] theorem State.onCore_engines (s : State) (k : CoreId) (f : Core → Core) : (s.onCore k f).engines = s.engines := rfl
@[simp] theorem State.onCore_port (s : State) (k : CoreId) (f : Core → Core) : (s.onCore k f).port = s.port := rfl
@[simp] theorem State.onCore_retained (s : State) (k : CoreId) (f : Core → Core) : (s.onCore k f).retained = s.retained := rfl
@[simp] theorem State.onCore_pkgid (s : State) (k : CoreId) (f : Core → Core) : (s.onCore k f).pkgid = s.pkgid := rfl
@[simp] theorem State.onCore_links (s : State) (k : CoreId) (f : Core → Core) : (s.onCore k f).links = s.links := rfl
@[simp] theorem State.onCore_warm (s : State) (k : CoreId) (f : Core → Core) : (s.onCore k f).warm = s.warm := rfl
@[simp] theorem State.onCore_cycle (s : State) (k : CoreId) (f : Core → Core) : (s.onCore k f).cycle = s.cycle := rfl
@[simp] theorem State.onCore_nextUid (s : State) (k : CoreId) (f : Core → Core) : (s.onCore k f).nextUid = s.nextUid := rfl
@[simp] theorem State.onCore_rounds (s : State) (k : CoreId) (f : Core → Core) : (s.onCore k f).rounds = s.rounds := rfl
@[simp] theorem State.onCore_agenda (s : State) (k : CoreId) (f : Core → Core) : (s.onCore k f).agenda = s.agenda := rfl
@[simp] theorem State.onCore_turn (s : State) (k : CoreId) (f : Core → Core) : (s.onCore k f).turn = s.turn := rfl
@[simp] theorem State.onCore_free (s : State) (k : CoreId) (f : Core → Core) : (s.onCore k f).free = s.free := rfl

/-! `mapHarts` -/

@[simp] theorem State.mapHarts_cur (s : State) (f : Hart → Hart) : (s.mapHarts f).cur = f s.cur := rfl
@[simp] theorem State.mapHarts_others (s : State) (f : Hart → Hart) : (s.mapHarts f).others = s.others.map f := rfl
@[simp] theorem State.mapHarts_replies (s : State) (f : Hart → Hart) : (s.mapHarts f).replies = s.replies := rfl
@[simp] theorem State.mapHarts_cores (s : State) (f : Hart → Hart) : (s.mapHarts f).cores = s.cores := rfl
@[simp] theorem State.mapHarts_clusters (s : State) (f : Hart → Hart) : (s.mapHarts f).clusters = s.clusters := rfl
@[simp] theorem State.mapHarts_dies (s : State) (f : Hart → Hart) : (s.mapHarts f).dies = s.dies := rfl
@[simp] theorem State.mapHarts_store (s : State) (f : Hart → Hart) : (s.mapHarts f).store = s.store := rfl
@[simp] theorem State.mapHarts_engines (s : State) (f : Hart → Hart) : (s.mapHarts f).engines = s.engines := rfl
@[simp] theorem State.mapHarts_port (s : State) (f : Hart → Hart) : (s.mapHarts f).port = s.port := rfl
@[simp] theorem State.mapHarts_retained (s : State) (f : Hart → Hart) : (s.mapHarts f).retained = s.retained := rfl
@[simp] theorem State.mapHarts_pkgid (s : State) (f : Hart → Hart) : (s.mapHarts f).pkgid = s.pkgid := rfl
@[simp] theorem State.mapHarts_links (s : State) (f : Hart → Hart) : (s.mapHarts f).links = s.links := rfl
@[simp] theorem State.mapHarts_warm (s : State) (f : Hart → Hart) : (s.mapHarts f).warm = s.warm := rfl
@[simp] theorem State.mapHarts_cycle (s : State) (f : Hart → Hart) : (s.mapHarts f).cycle = s.cycle := rfl
@[simp] theorem State.mapHarts_nextUid (s : State) (f : Hart → Hart) : (s.mapHarts f).nextUid = s.nextUid := rfl
@[simp] theorem State.mapHarts_rounds (s : State) (f : Hart → Hart) : (s.mapHarts f).rounds = s.rounds := rfl
@[simp] theorem State.mapHarts_agenda (s : State) (f : Hart → Hart) : (s.mapHarts f).agenda = s.agenda := rfl
@[simp] theorem State.mapHarts_turn (s : State) (f : Hart → Hart) : (s.mapHarts f).turn = s.turn := rfl
@[simp] theorem State.mapHarts_free (s : State) (f : Hart → Hart) : (s.mapHarts f).free = s.free := rfl

/-! `setG` -/

@[simp] theorem State.setG_cur (s : State) (r : Gpr) (v : Word) : (s.setG r v).cur = s.cur.setGr r v := rfl
@[simp] theorem State.setG_others (s : State) (r : Gpr) (v : Word) : (s.setG r v).others = s.others := rfl
@[simp] theorem State.setG_replies (s : State) (r : Gpr) (v : Word) : (s.setG r v).replies = s.replies := rfl
@[simp] theorem State.setG_cores (s : State) (r : Gpr) (v : Word) : (s.setG r v).cores = s.cores := rfl
@[simp] theorem State.setG_clusters (s : State) (r : Gpr) (v : Word) : (s.setG r v).clusters = s.clusters := rfl
@[simp] theorem State.setG_dies (s : State) (r : Gpr) (v : Word) : (s.setG r v).dies = s.dies := rfl
@[simp] theorem State.setG_store (s : State) (r : Gpr) (v : Word) : (s.setG r v).store = s.store := rfl
@[simp] theorem State.setG_engines (s : State) (r : Gpr) (v : Word) : (s.setG r v).engines = s.engines := rfl
@[simp] theorem State.setG_port (s : State) (r : Gpr) (v : Word) : (s.setG r v).port = s.port := rfl
@[simp] theorem State.setG_retained (s : State) (r : Gpr) (v : Word) : (s.setG r v).retained = s.retained := rfl
@[simp] theorem State.setG_pkgid (s : State) (r : Gpr) (v : Word) : (s.setG r v).pkgid = s.pkgid := rfl
@[simp] theorem State.setG_links (s : State) (r : Gpr) (v : Word) : (s.setG r v).links = s.links := rfl
@[simp] theorem State.setG_warm (s : State) (r : Gpr) (v : Word) : (s.setG r v).warm = s.warm := rfl
@[simp] theorem State.setG_cycle (s : State) (r : Gpr) (v : Word) : (s.setG r v).cycle = s.cycle := rfl
@[simp] theorem State.setG_nextUid (s : State) (r : Gpr) (v : Word) : (s.setG r v).nextUid = s.nextUid := rfl
@[simp] theorem State.setG_rounds (s : State) (r : Gpr) (v : Word) : (s.setG r v).rounds = s.rounds := rfl
@[simp] theorem State.setG_agenda (s : State) (r : Gpr) (v : Word) : (s.setG r v).agenda = s.agenda := rfl
@[simp] theorem State.setG_turn (s : State) (r : Gpr) (v : Word) : (s.setG r v).turn = s.turn := rfl
@[simp] theorem State.setG_free (s : State) (r : Gpr) (v : Word) : (s.setG r v).free = s.free := rfl

/-! `goto` -/

@[simp] theorem State.goto_cur (s : State) (t : Word) : (s.goto t).cur = s.cur.goto t := rfl
@[simp] theorem State.goto_others (s : State) (t : Word) : (s.goto t).others = s.others := rfl
@[simp] theorem State.goto_replies (s : State) (t : Word) : (s.goto t).replies = s.replies := rfl
@[simp] theorem State.goto_cores (s : State) (t : Word) : (s.goto t).cores = s.cores := rfl
@[simp] theorem State.goto_clusters (s : State) (t : Word) : (s.goto t).clusters = s.clusters := rfl
@[simp] theorem State.goto_dies (s : State) (t : Word) : (s.goto t).dies = s.dies := rfl
@[simp] theorem State.goto_store (s : State) (t : Word) : (s.goto t).store = s.store := rfl
@[simp] theorem State.goto_engines (s : State) (t : Word) : (s.goto t).engines = s.engines := rfl
@[simp] theorem State.goto_port (s : State) (t : Word) : (s.goto t).port = s.port := rfl
@[simp] theorem State.goto_retained (s : State) (t : Word) : (s.goto t).retained = s.retained := rfl
@[simp] theorem State.goto_pkgid (s : State) (t : Word) : (s.goto t).pkgid = s.pkgid := rfl
@[simp] theorem State.goto_links (s : State) (t : Word) : (s.goto t).links = s.links := rfl
@[simp] theorem State.goto_warm (s : State) (t : Word) : (s.goto t).warm = s.warm := rfl
@[simp] theorem State.goto_cycle (s : State) (t : Word) : (s.goto t).cycle = s.cycle := rfl
@[simp] theorem State.goto_nextUid (s : State) (t : Word) : (s.goto t).nextUid = s.nextUid := rfl
@[simp] theorem State.goto_rounds (s : State) (t : Word) : (s.goto t).rounds = s.rounds := rfl
@[simp] theorem State.goto_agenda (s : State) (t : Word) : (s.goto t).agenda = s.agenda := rfl
@[simp] theorem State.goto_turn (s : State) (t : Word) : (s.goto t).turn = s.turn := rfl
@[simp] theorem State.goto_free (s : State) (t : Word) : (s.goto t).free = s.free := rfl

/-! `advance` -/

@[simp] theorem State.advance_cur (s : State) : (s.advance).cur = s.cur.goto (s.pc + 4) := rfl
@[simp] theorem State.advance_others (s : State) : (s.advance).others = s.others := rfl
@[simp] theorem State.advance_replies (s : State) : (s.advance).replies = s.replies := rfl
@[simp] theorem State.advance_cores (s : State) : (s.advance).cores = s.cores := rfl
@[simp] theorem State.advance_clusters (s : State) : (s.advance).clusters = s.clusters := rfl
@[simp] theorem State.advance_dies (s : State) : (s.advance).dies = s.dies := rfl
@[simp] theorem State.advance_store (s : State) : (s.advance).store = s.store := rfl
@[simp] theorem State.advance_engines (s : State) : (s.advance).engines = s.engines := rfl
@[simp] theorem State.advance_port (s : State) : (s.advance).port = s.port := rfl
@[simp] theorem State.advance_retained (s : State) : (s.advance).retained = s.retained := rfl
@[simp] theorem State.advance_pkgid (s : State) : (s.advance).pkgid = s.pkgid := rfl
@[simp] theorem State.advance_links (s : State) : (s.advance).links = s.links := rfl
@[simp] theorem State.advance_warm (s : State) : (s.advance).warm = s.warm := rfl
@[simp] theorem State.advance_cycle (s : State) : (s.advance).cycle = s.cycle := rfl
@[simp] theorem State.advance_nextUid (s : State) : (s.advance).nextUid = s.nextUid := rfl
@[simp] theorem State.advance_rounds (s : State) : (s.advance).rounds = s.rounds := rfl
@[simp] theorem State.advance_agenda (s : State) : (s.advance).agenda = s.agenda := rfl
@[simp] theorem State.advance_turn (s : State) : (s.advance).turn = s.turn := rfl
@[simp] theorem State.advance_free (s : State) : (s.advance).free = s.free := rfl

/-! `stalled` -/

@[simp] theorem State.stalled_cur (s : State) (w : Stall) : (s.stalled w).cur = { s.cur with wait := { s.cur.wait with stall := some w } } := rfl
@[simp] theorem State.stalled_others (s : State) (w : Stall) : (s.stalled w).others = s.others := rfl
@[simp] theorem State.stalled_replies (s : State) (w : Stall) : (s.stalled w).replies = s.replies := rfl
@[simp] theorem State.stalled_cores (s : State) (w : Stall) : (s.stalled w).cores = s.cores := rfl
@[simp] theorem State.stalled_clusters (s : State) (w : Stall) : (s.stalled w).clusters = s.clusters := rfl
@[simp] theorem State.stalled_dies (s : State) (w : Stall) : (s.stalled w).dies = s.dies := rfl
@[simp] theorem State.stalled_store (s : State) (w : Stall) : (s.stalled w).store = s.store := rfl
@[simp] theorem State.stalled_engines (s : State) (w : Stall) : (s.stalled w).engines = s.engines := rfl
@[simp] theorem State.stalled_port (s : State) (w : Stall) : (s.stalled w).port = s.port := rfl
@[simp] theorem State.stalled_retained (s : State) (w : Stall) : (s.stalled w).retained = s.retained := rfl
@[simp] theorem State.stalled_pkgid (s : State) (w : Stall) : (s.stalled w).pkgid = s.pkgid := rfl
@[simp] theorem State.stalled_links (s : State) (w : Stall) : (s.stalled w).links = s.links := rfl
@[simp] theorem State.stalled_warm (s : State) (w : Stall) : (s.stalled w).warm = s.warm := rfl
@[simp] theorem State.stalled_cycle (s : State) (w : Stall) : (s.stalled w).cycle = s.cycle := rfl
@[simp] theorem State.stalled_nextUid (s : State) (w : Stall) : (s.stalled w).nextUid = s.nextUid := rfl
@[simp] theorem State.stalled_rounds (s : State) (w : Stall) : (s.stalled w).rounds = s.rounds := rfl
@[simp] theorem State.stalled_agenda (s : State) (w : Stall) : (s.stalled w).agenda = s.agenda := rfl
@[simp] theorem State.stalled_turn (s : State) (w : Stall) : (s.stalled w).turn = s.turn := rfl
@[simp] theorem State.stalled_free (s : State) (w : Stall) : (s.stalled w).free = s.free := rfl

/-! `sflags` -/

@[simp] theorem State.sflags_cur (s : State) (fl : BitVec 5) : (s.sflags fl).cur = { s.cur with fp := { s.cur.fp with flags := s.cur.fp.flags ||| fl } } := rfl
@[simp] theorem State.sflags_others (s : State) (fl : BitVec 5) : (s.sflags fl).others = s.others := rfl
@[simp] theorem State.sflags_replies (s : State) (fl : BitVec 5) : (s.sflags fl).replies = s.replies := rfl
@[simp] theorem State.sflags_cores (s : State) (fl : BitVec 5) : (s.sflags fl).cores = s.cores := rfl
@[simp] theorem State.sflags_clusters (s : State) (fl : BitVec 5) : (s.sflags fl).clusters = s.clusters := rfl
@[simp] theorem State.sflags_dies (s : State) (fl : BitVec 5) : (s.sflags fl).dies = s.dies := rfl
@[simp] theorem State.sflags_store (s : State) (fl : BitVec 5) : (s.sflags fl).store = s.store := rfl
@[simp] theorem State.sflags_engines (s : State) (fl : BitVec 5) : (s.sflags fl).engines = s.engines := rfl
@[simp] theorem State.sflags_port (s : State) (fl : BitVec 5) : (s.sflags fl).port = s.port := rfl
@[simp] theorem State.sflags_retained (s : State) (fl : BitVec 5) : (s.sflags fl).retained = s.retained := rfl
@[simp] theorem State.sflags_pkgid (s : State) (fl : BitVec 5) : (s.sflags fl).pkgid = s.pkgid := rfl
@[simp] theorem State.sflags_links (s : State) (fl : BitVec 5) : (s.sflags fl).links = s.links := rfl
@[simp] theorem State.sflags_warm (s : State) (fl : BitVec 5) : (s.sflags fl).warm = s.warm := rfl
@[simp] theorem State.sflags_cycle (s : State) (fl : BitVec 5) : (s.sflags fl).cycle = s.cycle := rfl
@[simp] theorem State.sflags_nextUid (s : State) (fl : BitVec 5) : (s.sflags fl).nextUid = s.nextUid := rfl
@[simp] theorem State.sflags_rounds (s : State) (fl : BitVec 5) : (s.sflags fl).rounds = s.rounds := rfl
@[simp] theorem State.sflags_agenda (s : State) (fl : BitVec 5) : (s.sflags fl).agenda = s.agenda := rfl
@[simp] theorem State.sflags_turn (s : State) (fl : BitVec 5) : (s.sflags fl).turn = s.turn := rfl
@[simp] theorem State.sflags_free (s : State) (fl : BitVec 5) : (s.sflags fl).free = s.free := rfl

/-! `put` -/

@[simp] theorem State.put_cur (s : State) (d : Gpr) (v : Word) : (s.put d v).cur = (s.cur.setGr d v).goto ((s.cur.setGr d v).base.pc + 4) := rfl
@[simp] theorem State.put_others (s : State) (d : Gpr) (v : Word) : (s.put d v).others = s.others := rfl
@[simp] theorem State.put_replies (s : State) (d : Gpr) (v : Word) : (s.put d v).replies = s.replies := rfl
@[simp] theorem State.put_cores (s : State) (d : Gpr) (v : Word) : (s.put d v).cores = s.cores := rfl
@[simp] theorem State.put_clusters (s : State) (d : Gpr) (v : Word) : (s.put d v).clusters = s.clusters := rfl
@[simp] theorem State.put_dies (s : State) (d : Gpr) (v : Word) : (s.put d v).dies = s.dies := rfl
@[simp] theorem State.put_store (s : State) (d : Gpr) (v : Word) : (s.put d v).store = s.store := rfl
@[simp] theorem State.put_engines (s : State) (d : Gpr) (v : Word) : (s.put d v).engines = s.engines := rfl
@[simp] theorem State.put_port (s : State) (d : Gpr) (v : Word) : (s.put d v).port = s.port := rfl
@[simp] theorem State.put_retained (s : State) (d : Gpr) (v : Word) : (s.put d v).retained = s.retained := rfl
@[simp] theorem State.put_pkgid (s : State) (d : Gpr) (v : Word) : (s.put d v).pkgid = s.pkgid := rfl
@[simp] theorem State.put_links (s : State) (d : Gpr) (v : Word) : (s.put d v).links = s.links := rfl
@[simp] theorem State.put_warm (s : State) (d : Gpr) (v : Word) : (s.put d v).warm = s.warm := rfl
@[simp] theorem State.put_cycle (s : State) (d : Gpr) (v : Word) : (s.put d v).cycle = s.cycle := rfl
@[simp] theorem State.put_nextUid (s : State) (d : Gpr) (v : Word) : (s.put d v).nextUid = s.nextUid := rfl
@[simp] theorem State.put_rounds (s : State) (d : Gpr) (v : Word) : (s.put d v).rounds = s.rounds := rfl
@[simp] theorem State.put_agenda (s : State) (d : Gpr) (v : Word) : (s.put d v).agenda = s.agenda := rfl
@[simp] theorem State.put_turn (s : State) (d : Gpr) (v : Word) : (s.put d v).turn = s.turn := rfl
@[simp] theorem State.put_free (s : State) (d : Gpr) (v : Word) : (s.put d v).free = s.free := rfl

/-! A register write changes nothing of the hart but its registers; `goto` nothing but the PC, the stall and the mark of a return. -/

@[simp] theorem Hart.setGr_id (x : Hart) (r : Gpr) (v : Word) : (x.setGr r v).id = x.id := by
  unfold Hart.setGr; split <;> rfl
@[simp] theorem Hart.setGr_uid (x : Hart) (r : Gpr) (v : Word) : (x.setGr r v).uid = x.uid := by
  unfold Hart.setGr; split <;> rfl
@[simp] theorem Hart.setGr_occ (x : Hart) (r : Gpr) (v : Word) : (x.setGr r v).occ = x.occ := by
  unfold Hart.setGr; split <;> rfl
@[simp] theorem Hart.setGr_fp (x : Hart) (r : Gpr) (v : Word) : (x.setGr r v).fp = x.fp := by
  unfold Hart.setGr; split <;> rfl
@[simp] theorem Hart.setGr_trap (x : Hart) (r : Gpr) (v : Word) : (x.setGr r v).trap = x.trap := by
  unfold Hart.setGr; split <;> rfl
@[simp] theorem Hart.setGr_sel (x : Hart) (r : Gpr) (v : Word) : (x.setGr r v).sel = x.sel := by
  unfold Hart.setGr; split <;> rfl
@[simp] theorem Hart.setGr_ev (x : Hart) (r : Gpr) (v : Word) : (x.setGr r v).ev = x.ev := by
  unfold Hart.setGr; split <;> rfl
@[simp] theorem Hart.setGr_place (x : Hart) (r : Gpr) (v : Word) : (x.setGr r v).place = x.place := by
  unfold Hart.setGr; split <;> rfl
@[simp] theorem Hart.setGr_cyc (x : Hart) (r : Gpr) (v : Word) : (x.setGr r v).cyc = x.cyc := by
  unfold Hart.setGr; split <;> rfl
@[simp] theorem Hart.setGr_qs (x : Hart) (r : Gpr) (v : Word) : (x.setGr r v).qs = x.qs := by
  unfold Hart.setGr; split <;> rfl
@[simp] theorem Hart.setGr_vec (x : Hart) (r : Gpr) (v : Word) : (x.setGr r v).vec = x.vec := by
  unfold Hart.setGr; split <;> rfl
@[simp] theorem Hart.setGr_lease (x : Hart) (r : Gpr) (v : Word) : (x.setGr r v).lease = x.lease := by
  unfold Hart.setGr; split <;> rfl
@[simp] theorem Hart.setGr_wait (x : Hart) (r : Gpr) (v : Word) : (x.setGr r v).wait = x.wait := by
  unfold Hart.setGr; split <;> rfl
@[simp] theorem Hart.setGr_handler (x : Hart) (r : Gpr) (v : Word) : (x.setGr r v).handler = x.handler := by
  unfold Hart.setGr; split <;> rfl
@[simp] theorem Hart.setGr_links (x : Hart) (r : Gpr) (v : Word) : (x.setGr r v).links = x.links := by
  unfold Hart.setGr; split <;> rfl
@[simp] theorem Hart.setGr_linkSet (x : Hart) (r : Gpr) (v : Word) : (x.setGr r v).linkSet = x.linkSet := by
  unfold Hart.setGr; split <;> rfl
@[simp] theorem Hart.setGr_allFail (x : Hart) (r : Gpr) (v : Word) : (x.setGr r v).allFail = x.allFail := by
  unfold Hart.setGr; split <;> rfl
@[simp] theorem Hart.setGr_pc (x : Hart) (r : Gpr) (v : Word) : (x.setGr r v).base.pc = x.base.pc := by
  unfold Hart.setGr; split <;> rfl
@[simp] theorem Hart.setGr_level (x : Hart) (r : Gpr) (v : Word) : (x.setGr r v).base.level = x.base.level := by
  unfold Hart.setGr; split <;> rfl
@[simp] theorem Hart.setGr_key (x : Hart) (r : Gpr) (v : Word) : (x.setGr r v).base.key = x.base.key := by
  unfold Hart.setGr; split <;> rfl
@[simp] theorem Hart.setGr_ptroot (x : Hart) (r : Gpr) (v : Word) : (x.setGr r v).base.ptroot = x.base.ptroot := by
  unfold Hart.setGr; split <;> rfl
@[simp] theorem Hart.setGr_feat (x : Hart) (r : Gpr) (v : Word) : (x.setGr r v).base.feat = x.base.feat := by
  unfold Hart.setGr; split <;> rfl
@[simp] theorem Hart.goto_id (x : Hart) (t : Word) : (x.goto t).id = x.id := rfl
@[simp] theorem Hart.goto_uid (x : Hart) (t : Word) : (x.goto t).uid = x.uid := rfl
@[simp] theorem Hart.goto_occ (x : Hart) (t : Word) : (x.goto t).occ = x.occ := rfl
@[simp] theorem Hart.goto_fp (x : Hart) (t : Word) : (x.goto t).fp = x.fp := rfl
@[simp] theorem Hart.goto_sel (x : Hart) (t : Word) : (x.goto t).sel = x.sel := rfl
@[simp] theorem Hart.goto_ev (x : Hart) (t : Word) : (x.goto t).ev = x.ev := rfl
@[simp] theorem Hart.goto_place (x : Hart) (t : Word) : (x.goto t).place = x.place := rfl
@[simp] theorem Hart.goto_cyc (x : Hart) (t : Word) : (x.goto t).cyc = x.cyc := rfl
@[simp] theorem Hart.goto_qs (x : Hart) (t : Word) : (x.goto t).qs = x.qs := rfl
@[simp] theorem Hart.goto_vec (x : Hart) (t : Word) : (x.goto t).vec = x.vec := rfl
@[simp] theorem Hart.goto_lease (x : Hart) (t : Word) : (x.goto t).lease = x.lease := rfl
@[simp] theorem Hart.goto_handler (x : Hart) (t : Word) : (x.goto t).handler = x.handler := rfl
@[simp] theorem Hart.goto_links (x : Hart) (t : Word) : (x.goto t).links = x.links := rfl
@[simp] theorem Hart.goto_linkSet (x : Hart) (t : Word) : (x.goto t).linkSet = x.linkSet := rfl
@[simp] theorem Hart.goto_allFail (x : Hart) (t : Word) : (x.goto t).allFail = x.allFail := rfl
@[simp] theorem Hart.goto_pc (x : Hart) (t : Word) : (x.goto t).base.pc = t := rfl
@[simp] theorem Hart.goto_g (x : Hart) (t : Word) : (x.goto t).base.g = x.base.g := rfl
@[simp] theorem Hart.goto_level (x : Hart) (t : Word) : (x.goto t).base.level = x.base.level := rfl
@[simp] theorem Hart.goto_key (x : Hart) (t : Word) : (x.goto t).base.key = x.base.key := rfl
@[simp] theorem Hart.goto_ptroot (x : Hart) (t : Word) : (x.goto t).base.ptroot = x.base.ptroot := rfl
@[simp] theorem Hart.goto_feat (x : Hart) (t : Word) : (x.goto t).base.feat = x.base.feat := rfl
@[simp] theorem Hart.goto_gr (x : Hart) (t : Word) (r : Gpr) : (x.goto t).gr r = x.gr r := rfl

/-! ### The general registers (R276) -/

@[simp] theorem Hart.gr_zero (x : Hart) : x.gr 0 = 0 := rfl

@[simp] theorem Hart.setGr_zero (x : Hart) (v : Word) : x.setGr 0 v = x := rfl

theorem Hart.gr_setGr_same (x : Hart) (r : Gpr) (v : Word) (h : r ≠ 0) : (x.setGr r v).gr r = v := by
  unfold Hart.gr Hart.setGr
  rw [if_neg h, if_neg h]
  simp

theorem Hart.gr_setGr_other (x : Hart) (r q : Gpr) (v : Word) (h : q ≠ r) : (x.setGr r v).gr q = x.gr q := by
  have hn : r.toNat ≠ q.toNat := fun e => h (BitVec.eq_of_toNat_eq e.symm)
  unfold Hart.setGr
  split
  · rfl
  · simp [Hart.gr, hn]

end Sys2Proof.Machine
end

