-- ==== Sys2Proof/Laws/Ops.lean ====
section
/-! SUPPORT. What each shared operation can answer, once: the scalar frame of R290, the commit points, the vector frame of R291,
the engines' events, the mailbox. -/

namespace Sys2Proof.Machine

/-! ### The ends of a piece of work -/

@[simp] theorem finish_ok (s0 s : State) (a : Unit) : finish s0 (.ok a s) = .next s := rfl

@[simp] theorem finish_trap (s0 s : State) (c : Nat) (t : Word) : finish s0 (.trap c t s) = .next (s.scalarTrap c t) := rfl

@[simp] theorem finish_stall (s0 s : State) (w : Stall) : finish s0 (.stall w s) = .next ((s0.keepRequests s).stalled w) := rfl

@[simp] theorem Res.bind_ok {α β : Type} (a : α) (s : State) (f : α → State → Res β) : (Res.ok a s).bind f = f a s := rfl

@[simp] theorem Res.bind_trap {α β : Type} (c : Nat) (t : Word) (s : State) (f : α → State → Res β) :
    (Res.trap c t s : Res α).bind f = .trap c t s := rfl

@[simp] theorem Res.bind_stall {α β : Type} (w : Stall) (s : State) (f : α → State → Res β) :
    (Res.stall w s : Res α).bind f = .stall w s := rfl

theorem finish_goesOn (s0 : State) (r : Res Unit) : ∃ t, finish s0 r = .next t := by
  cases r <;> exact ⟨_, rfl⟩

theorem engineEvent_goesOn (s0 : State) (who : Nat) (r : Res Unit) : ∃ t, engineEvent s0 who r = .next t := by
  cases r <;> exact ⟨_, rfl⟩

/-! ### Scalar instructions (R290) -/

/-- The checks pass: the body decides. -/
theorem scalar_admitted {i : Instr} {s : State} (h : s.admits i) (body : State → Res Unit) :
    scalar i s body = finish s (body s) := by
  unfold scalar; rw [h]

/-- A check fails: its trap. -/
theorem scalar_refused {i : Instr} {s : State} {c : Nat} (h : s.cur.refuses i = some c) (body : State → Res Unit) :
    scalar i s body = .next (s.scalarTrap c i.word) := by
  unfold scalar; rw [h]

theorem scalar_goesOn (i : Instr) (s : State) (body : State → Res Unit) : ∃ t, scalar i s body = .next t := by
  unfold scalar
  cases s.cur.refuses i with
  | some c => exact ⟨_, rfl⟩
  | none => exact finish_goesOn s _

theorem sysAccess_goesOn (i : Instr) (n : BitVec 12) (s : State) (f : Word → State → Res Unit) :
    ∃ t, sysAccess i n s f = .next t := scalar_goesOn _ _ _

theorem barrier_goesOn (i : Instr) (n : BitVec 3) (s : State) (f : Run → Barrier → State → Res Unit) :
    ∃ t, barrier i n s f = .next t := scalar_goesOn _ _ _

/-! ### The end of a strip (R217, R391) -/

/-- Without a strip there is nothing to commit. -/
theorem commit_closed {s : State} (h : s.cur.vec.strip = none) : s.commit = .done s := by
  unfold State.commit; rw [h]

theorem stripOpen_closed {s : State} (h : s.cur.vec.strip = none) (hr : s.cur.vec.reopen = none) : s.cur.stripOpen = false := by
  simp [Hart.stripOpen, h, hr]

/-- At rest, the end of a strip does nothing. -/
theorem endStrip_atRest {s : State} (h : s.atRest) (how : StripEnd) (go : State → Out) (hs : ∀ f, how ≠ .setl f) :
    endStrip s how go = go s := by
  obtain ⟨hq, ht, hr, hd, hm⟩ := h
  have ho := stripOpen_closed ht hr
  cases how with
  | setl f => exact absurd rfl (hs f)
  | again => simp [endStrip, hq, commit_closed ht, ho, hd, hm]
  | rel => simp [endStrip, hq, commit_closed ht, ho]
  | exit => simp [endStrip, hq, commit_closed ht]

/-- The same for VSETL. -/
theorem endStrip_setl_atRest {s : State} (h : s.atRest) (f : State → State) (go : State → Out) : endStrip s (.setl f) go = go s := by
  obtain ⟨hq, ht, hr, hd, hm⟩ := h
  simp [endStrip, hq, commit_closed ht, stripOpen_closed ht hr, hd, hm]

theorem endStrip_goesOn (s : State) (how : StripEnd) (go : State → Out) (hg : ∀ u, ∃ t, go u = .next t) :
    ∃ t, endStrip s how go = .next t := by
  unfold endStrip
  split
  · exact ⟨_, rfl⟩
  · cases s.commit with
    | stall w s' => exact ⟨_, rfl⟩
    | refused c t s' => exact ⟨_, rfl⟩
    | done s' =>
      cases how with
      | exit => exact hg s'
      | rel => dsimp only; split; exact ⟨_, rfl⟩; exact hg s'
      | setl f => dsimp only; split; exact ⟨_, rfl⟩; split; exact ⟨_, rfl⟩; exact hg s'
      | again => dsimp only; split; exact ⟨_, rfl⟩; split; exact ⟨_, rfl⟩; exact hg _

/-- At rest, a commit point whose own checks pass performs. -/
theorem commitPoint_atRest {i : Instr} {s u : State} (op : State → Res Unit) (ha : s.admits i) (h : s.atRest) (ho : op s = .ok () u) :
    commitPoint i s op = .next u := by
  unfold commitPoint
  rw [ha]
  simp only [ho]
  rw [endStrip_atRest h _ _ (fun f => by simp), ho]
  rfl

theorem commitPoint_goesOn (i : Instr) (s : State) (op : State → Res Unit) : ∃ t, commitPoint i s op = .next t := by
  unfold commitPoint
  cases s.cur.refuses i with
  | some c => exact ⟨_, rfl⟩
  | none =>
    cases op s with
    | trap c t u => exact ⟨_, rfl⟩
    | stall w u => exact ⟨_, rfl⟩
    | ok a u => exact endStrip_goesOn _ _ _ fun v => finish_goesOn v _

theorem vectorTrapHere_goesOn (s : State) (c : Nat) (t : Word) : ∃ u, s.vectorTrapHere c t = .next u := by
  unfold State.vectorTrapHere
  cases s.abortStrip c <;> exact ⟨_, rfl⟩

/-! ### Vector instructions (R291) -/

theorem vectorTrap_goesOn (s0 s : State) (c : Nat) (t : Word) : ∃ u, vectorTrap s0 s c t = .next u := by
  unfold vectorTrap
  cases s.abortStrip c <;> exact ⟨_, rfl⟩

/-- The guard lets a legal word of an open strip run. -/
theorem guardVector_ok {i : Instr} {s : State} (h : s.vectorOk i) (go : Out) : guardVector i s go = go := by
  obtain ⟨hr, hl, hf⟩ := h
  simp [guardVector, hr, hl, hf]

theorem guardVector_goesOn (i : Instr) (s : State) (go : Out) (hg : ∃ t, go = .next t) :
    goesOnUnlessStripless (guardVector i s go) := by
  unfold guardVector
  split
  · exact .inr rfl
  · split
    · exact .inl (vectorTrap_goesOn s s _ _)
    · exact .inl hg

/-- A vector word that neither traps nor stalls: its effect, then the next word. -/
theorem vector_ok {i : Instr} {s u : State} (h : s.vectorOk i) (body : State → Res Unit) (hb : body s = .ok () u) :
    vector i s body = .next u.nextWord := by
  unfold vector; rw [guardVector_ok h, hb]

theorem vectorPure_ok {i : Instr} {s : State} (h : s.vectorOk i) (body : State → State) :
    vectorPure i s body = .next (body s).nextWord := vector_ok h _ rfl

theorem vector_goesOn (i : Instr) (s : State) (body : State → Res Unit) : goesOnUnlessStripless (vector i s body) := by
  unfold vector
  refine guardVector_goesOn i s _ ?_
  cases body s with
  | ok a u => exact ⟨_, rfl⟩
  | trap c t u => exact vectorTrap_goesOn s u c t
  | stall w u => exact ⟨_, rfl⟩

/-! ### The mailbox (R60) -/

/-- A command in progress is carried out. -/
theorem mailbox_runs {code : Nat} {s : State} (f : Port0 → MailReply) (hb : s.port.busy = true) (hd : s.port.mbdone = false)
    (hc : s.port.mbcmd.toNat = code) (hs : 8 ≤ (s.die 0).boot.step) : mailbox code s f = .next (f s.port).post := by
  simp [mailbox, hb, hd, hc, Nat.not_lt.mpr hs]

theorem mailbox_goesOn (code : Nat) (s : State) (f : Port0 → MailReply) : ∃ t, mailbox code s f = .next t := by
  unfold mailbox
  dsimp only
  split <;> exact ⟨_, rfl⟩

/-! ### The general registers -/

/-- A result register that is not g0 reads the result; every other register reads as before. -/
theorem State.put_g (s : State) (d r : Gpr) (v : Word) : (s.put d v).g r = if r = d ∧ d ≠ 0 then v else s.g r := by
  unfold State.g
  simp only [State.put_cur, Hart.goto_gr]
  by_cases h : r = d
  · subst h
    by_cases hz : r = 0
    · subst hz; rfl
    · rw [if_pos ⟨rfl, hz⟩, Hart.gr_setGr_same _ _ _ hz]
  · rw [if_neg (fun c => h c.1), Hart.gr_setGr_other _ _ _ _ h]

/-- Writing a result changes registers and the PC alone. -/
theorem State.put_onlyRegs (s : State) (d : Gpr) (v : Word) : s.onlyRegs (s.put d v) := by
  constructor
  · rfl
  · unfold Hart.onlyRegs
    simp only [State.put_cur]
    unfold Hart.setGr
    split <;> rfl

/-- A result written by `put`: gD, the PC, and nothing else. -/
theorem State.put_resultIs (s : State) (d : Gpr) (v : Word) : s.resultIs (s.put d v) d v := by
  refine ⟨?_, ?_, ?_, s.put_onlyRegs d v⟩
  · rw [State.put_g]
    by_cases h : d = 0
    · subst h; rfl
    · rw [if_pos ⟨rfl, h⟩, if_neg h]
  · unfold State.pc; simp
  · intro r hr; rw [State.put_g, if_neg (fun c => hr c.1)]

/-- A branch changes the PC and nothing else. -/
theorem State.goto_wentTo (s : State) (pc : Word) : s.wentTo (s.goto pc) pc := by
  refine ⟨rfl, fun r => rfl, ⟨rfl, ?_⟩⟩
  unfold Hart.onlyRegs; rfl

end Sys2Proof.Machine
end

