-- ==== Sys2Proof/Laws/Access.lean ====
section
/-! SUPPORT. What one access to memory leaves alone: its translation, the update of its leaf, the read, the write;
that the traffic of a cycle holds none of the same cycle. -/

namespace Sys2Proof.Machine

/-- What the search for an access's place leaves alone: everything but the translation cache and the free values used. -/
structure SameButCaches (s t : State) : Prop where
  cur : t.cur = s.cur
  others : t.others = s.others
  bytes : t.store.bytes = s.store.bytes
  owners : t.store.owners = s.store.owners
  pkgid : t.pkgid = s.pkgid
  port : t.port = s.port
  cycle : t.cycle = s.cycle
  dies : t.dies = s.dies
  lock : t.store.lock = s.store.lock

theorem SameButCaches.refl (s : State) : SameButCaches s s := ⟨rfl, rfl, rfl, rfl, rfl, rfl, rfl, rfl, rfl⟩

theorem callSteward_never_ok {s t : State} {cx : Ctx} {va : Word} {a e : Nat} {p : Spot} : s.callSteward cx va a e ≠ .ok p t := by
  intro h
  unfold State.callSteward at h
  split at h
  · cases h
  · split at h
    · cases h
    · split at h <;> cases h

theorem translate_same {s t : State} {cx : Ctx} {k : Kind} {va : Word} {p : Spot} (h : Machine.translate s cx k va = .ok p t) :
    SameButCaches s t := by
  have key : ∀ s0 : State, SameButCaches s s0 → ∀ e l,
      (if leafAllows s.pkgid.toNat cx.user cx.key k e l va.toNat then
        Res.ok (⟨leafLoc e l va.toNat, bitsOf e 63 56, 2⟩ : Spot) (s0.onStore fun st => st.cacheLeaf cx va.toNat e l)
      else .trap 0x06 va s0) = .ok p t → SameButCaches s t := by
    intro s0 h0 e l hh
    split at hh
    · injection hh with _ hs
      subst hs
      have hc : ∀ st : Store, (st.cacheLeaf cx va.toNat e l).bytes = st.bytes ∧ (st.cacheLeaf cx va.toNat e l).owners = st.owners
          ∧ (st.cacheLeaf cx va.toNat e l).lock = st.lock := by
        intro st; unfold Store.cacheLeaf; dsimp only; split <;> exact ⟨rfl, rfl, rfl⟩
      exact ⟨h0.cur, h0.others, (hc _).1.trans h0.bytes, (hc _).2.1.trans h0.owners, h0.pkgid, h0.port, h0.cycle, h0.dies,
        (hc _).2.2.trans h0.lock⟩
    · cases hh
  have fresh : SameButCaches s s.fresh.2 := ⟨rfl, rfl, rfl, rfl, rfl, rfl, rfl, rfl, rfl⟩
  unfold Machine.translate at h
  simp only at h
  split at h
  · cases hw : walk s cx.root va.toNat <;> rw [hw] at h
    · cases h
    · exact absurd h callSteward_never_ok
    · exact key s (.refl s) _ _ h
  · split at h
    · exact key _ fresh _ _ h
    · cases hw : walk s cx.root va.toNat <;> rw [hw] at h
      · cases h
      · exact absurd h callSteward_never_ok
      · exact key _ fresh _ _ h

/-- A place that is found changes nothing but caches. -/
theorem resolve_same {s t : State} {cx : Ctx} {k : Kind} {va : Word} {p : Spot} (h : resolve s cx k va = .ok p t) : SameButCaches s t := by
  unfold resolve at h
  split at h
  · split at h
    · injection h with _ h; subst h; exact .refl s
    · cases h
  · split at h
    · cases h
    · exact translate_same h

/-- TVAL of a place that is not found is the address (R314). -/
theorem resolve_trap_tval {s t : State} {cx : Ctx} {k : Kind} {va v : Word} {c : Nat} (h : resolve s cx k va = .trap c v t) : v = va := by
  have steward : ∀ (s0 : State) a e, State.callSteward s0 cx va a e = .trap c v t → v = va := by
    intro s0 a e hh
    unfold State.callSteward at hh
    split at hh
    · injection hh with _ h _; exact h.symm
    · split at hh
      · cases hh
      · split at hh <;> cases hh
  unfold resolve at h
  split at h
  · split at h
    · cases h
    · injection h with _ h _; exact h.symm
  · split at h
    · injection h with _ h _; exact h.symm
    · unfold Machine.translate at h
      simp only at h
      repeat' split at h
      all_goals first
        | (injection h with _ h _; exact h.symm)
        | exact steward _ _ _ h
        | cases h

/-- The walk reads the bytes and the owners alone. -/
theorem walk_same {s t : State} (hb : t.store.bytes = s.store.bytes) (ho : t.store.owners = s.store.owners) (hp : t.pkgid = s.pkgid)
    (r : BitVec 56) (va : Nat) : walk t r va = walk s r va := by
  unfold walk
  rw [hp]
  have go : ∀ lev a, walkFrom t.store s.pkgid.toNat va lev a = walkFrom s.store s.pkgid.toNat va lev a := by
    intro lev
    induction lev with
    | zero => intro a; unfold walkFrom; simp only [hb, Store.ownerOf, ho]
    | succ n ih => intro a; unfold walkFrom; simp only [hb, Store.ownerOf, ho, ih]
  exact go _ _

/-- Links and the wake of a timed wait of the hart in focus fall with a write; no byte changes (R359, R363). -/
theorem dropLinks_frame (s : State) (loc n : Nat) : (s.dropLinks loc n).store = s.store
    ∧ ∃ l w, (s.dropLinks loc n).cur = { s.cur with links := l, wait := { s.cur.wait with woken := w } } := by
  refine ⟨rfl, ?_⟩
  unfold State.dropLinks State.mapHarts
  dsimp only
  split <;> split <;> exact ⟨_, _, rfl⟩

/-- Old words are kept beside the memory. -/
theorem remember_frame (s : State) (loc n : Nat) : (s.remember loc n).store.bytes = s.store.bytes
    ∧ (s.remember loc n).store.owners = s.store.owners ∧ (s.remember loc n).cur = s.cur ∧ (s.remember loc n).others = s.others := by
  unfold State.remember
  split <;> exact ⟨rfl, rfl, rfl, rfl⟩

/-- Noting the lines of a write and clearing its tags changes no byte. -/
theorem wroteLines_bytes (st : Store) (loc n key : Nat) : (st.wroteLines loc n key).bytes = st.bytes := by
  unfold Store.wroteLines
  split
  · rfl
  · split <;> rfl

/-- A write by the hardware: what `f` makes of the bytes, and of the hart in focus only links and the wake of a timed wait. -/
theorem overwrite_frame (s : State) (loc n key : Nat) (f : Mem → Mem) : (s.overwrite loc n key f).store.bytes = f s.store.bytes
    ∧ ∃ l w, (s.overwrite loc n key f).cur = { s.cur with links := l, wait := { s.cur.wait with woken := w } } := by
  unfold State.overwrite
  obtain ⟨h1, l, w, h2⟩ := dropLinks_frame ((s.remember loc n).onStore fun st =>
    (({ st with bytes := f st.bytes } : Store).wroteLines loc n key).untag loc n) loc n
  refine ⟨?_, l, w, ?_⟩
  · rw [h1]
    show (({ (s.remember loc n).store with bytes := f (s.remember loc n).store.bytes } : Store).wroteLines loc n key).bytes = _
    rw [wroteLines_bytes]
    show f (s.remember loc n).store.bytes = _
    rw [(remember_frame s loc n).1]
  · rw [h2]
    rw [show ((s.remember loc n).onStore fun st =>
      (({ st with bytes := f st.bytes } : Store).wroteLines loc n key).untag loc n).cur = s.cur from (remember_frame s loc n).2.2.1]

/-- A write by the hardware: the bytes, and of the hart in focus only links and the wake of a timed wait. -/
theorem rawWrite_frame (s : State) (loc n v : Nat) : (s.rawWrite loc n v).store.bytes = s.store.bytes.writeN loc n v
    ∧ ∃ l w, (s.rawWrite loc n v).cur = { s.cur with links := l, wait := { s.cur.wait with woken := w } } := by
  exact overwrite_frame s loc n 0 fun b => b.writeN loc n v

/-- The update of a leaf changes at most the 8 bytes of the entry that the walk finds; of the hart in focus only links and the wake of
a timed wait. -/
theorem setAD_frame (s : State) (root : BitVec 56) (va : Word) (p : Spot) (wr : Bool) :
    ((s.setAD root va p wr).store.bytes = s.store.bytes
        ∨ ∃ a e l v, walk s root va.toNat = .leaf a e l ∧ (s.setAD root va p wr).store.bytes = s.store.bytes.writeN a 8 v)
      ∧ ∃ l w, (s.setAD root va p wr).cur = { s.cur with links := l, wait := { s.cur.wait with woken := w } } := by
  unfold State.setAD State.adWrite
  split
  · rename_i a e h
    refine ⟨.inr ?_, (rawWrite_frame s a 8 e).2⟩
    split at h
    · cases h
    · split at h
      · dsimp only at h
        generalize _ ||| (if wr = true then 0xC0 else 0x40) = new at h
        split at h
        · injection h with h; injection h with h1 h2; subst h1 h2
          exact ⟨_, _, _, _, ‹_›, (rawWrite_frame _ _ _ _).1⟩
        · cases h
      · cases h
  · exact ⟨.inl rfl, s.cur.links, s.cur.wait.woken, rfl⟩

/-- A trace record changes the dies alone. -/
theorem traceHart_same (s : State) (x : Hart) (kind nmem : Nat) (head value : Word) :
    ∃ d, s.traceHart x kind nmem head value = { s with dies := d } := by
  unfold State.traceHart
  split
  · exact ⟨s.dies, rfl⟩
  · exact ⟨_, rfl⟩

/-- Traffic over a link changes the dies alone (R30, R32). -/
theorem overLink_same (s : State) (a b : Nat) : ∃ d, s.overLink a b = { s with dies := d } := by
  unfold State.overLink
  dsimp only
  split
  · exact ⟨s.dies, rfl⟩
  · split
    · exact ⟨_, rfl⟩
    · split
      · exact ⟨_, rfl⟩
      · exact ⟨s.dies, rfl⟩

/-- So does an access that crosses a link. -/
theorem crosses_same (s : State) (die loc : Nat) : ∃ d, s.crosses die loc = { s with dies := d } := by
  unfold State.crosses
  split
  all_goals first
    | exact overLink_same s die (homeDie loc)
    | exact ⟨s.dies, rfl⟩

/-- A read changes the audit counts and the dies alone. -/
theorem performRead_same (s : State) (cx : Ctx) (p : Spot) (n : Nat) (o : Order) :
    (s.performRead cx p n o).1 = s.peek p n
      ∧ ∃ r d, (s.performRead cx p n o).2 = { s with store := { s.store with ranges := r }, dies := d } := by
  refine ⟨rfl, ?_⟩
  have audit : ∃ r, s.audit cx.cls false p.loc n = { s with store := { s.store with ranges := r } } := by
    unfold State.audit
    split
    · exact ⟨s.store.ranges, rfl⟩
    · split <;> exact ⟨_, rfl⟩
  obtain ⟨r, hr⟩ := audit
  obtain ⟨d0, h0⟩ := crosses_same { s with store := { s.store with ranges := r } } cx.die p.loc
  unfold State.performRead
  simp only [hr, h0]
  split
  · unfold State.checkAcquire
    split
    · exact ⟨r, d0, rfl⟩
    · unfold State.scopeEvent
      obtain ⟨d, hd⟩ := traceHart_same _ _ _ _ _ _
      exact ⟨r, d, hd.trans rfl⟩
  · exact ⟨r, d0, rfl⟩

/-- What a read leaves unpredictable to write, and the sync words that arrivals may reach, stay as they are. -/
theorem performRead_open (s : State) (cx : Ctx) (p : Spot) (n : Nat) (o : Order) (q : Spot) (m : Nat) (cas : Bool) :
    (s.performRead cx p n o).2.wild q m cas = s.wild q m cas ∧ (s.performRead cx p n o).2.syncHit q.loc m = s.syncHit q.loc m := by
  obtain ⟨r, d, h⟩ := (performRead_same s cx p n o).2
  rw [h]
  exact ⟨rfl, rfl⟩

/-- A write to the device's memory: its bytes, and of the hart in focus only links and the wake of a timed wait (R359, R363). -/
theorem performHere_frame (s : State) (cx : Ctx) (p : Spot) (n v : Nat) (o : Order) :
    (s.performHere cx p n v o).store.bytes = s.store.bytes.writeN p.loc n v
      ∧ ∃ l w, (s.performHere cx p n v o).cur = { s.cur with links := l, wait := { s.cur.wait with woken := w } } := by
  have tag : ∀ u : State, (u.tagWrite cx p.loc n (effScope o.scp p.win p.loc) o.rel).store.bytes = u.store.bytes
      ∧ (u.tagWrite cx p.loc n (effScope o.scp p.win p.loc) o.rel).cur = u.cur := by
    intro u; unfold State.tagWrite; split <;> exact ⟨rfl, rfl⟩
  have audit : ∀ u : State, (u.audit cx.cls true p.loc n).store.bytes = u.store.bytes ∧ (u.audit cx.cls true p.loc n).cur = u.cur := by
    intro u
    unfold State.audit
    split
    · exact ⟨rfl, rfl⟩
    · split <;> exact ⟨rfl, rfl⟩
  unfold State.performHere
  dsimp only
  rw [(tag _).1, (tag _).2]
  obtain ⟨dd, hd⟩ := crosses_same (((((s.remember p.loc n).onStore fun st =>
    { st with bytes := st.bytes.writeN p.loc n v,
              owners := if st.ownerOf p.loc = freeOwner then Table.set freeOwner st.owners (ownerKey p.loc) p.key else st.owners }).onStore
      fun st => st.wroteLines p.loc n p.key).audit cx.cls true p.loc n).dropLinks p.loc n) cx.die p.loc
  rw [hd]
  obtain ⟨h1, l, w, h2⟩ := dropLinks_frame ((((s.remember p.loc n).onStore fun st =>
    { st with bytes := st.bytes.writeN p.loc n v,
              owners := if st.ownerOf p.loc = freeOwner then Table.set freeOwner st.owners (ownerKey p.loc) p.key else st.owners }).onStore
      fun st => st.wroteLines p.loc n p.key).audit cx.cls true p.loc n) p.loc n
  refine ⟨?_, l, w, ?_⟩
  · refine (congrArg Store.bytes h1).trans ?_
    rw [(audit _).1]
    refine (wroteLines_bytes _ _ _ _).trans ?_
    show (s.remember p.loc n).store.bytes.writeN p.loc n v = _
    rw [(remember_frame s p.loc n).1]
  · refine Eq.trans h2 ?_
    rw [(audit _).2]
    rw [show (((s.remember p.loc n).onStore fun st =>
      { st with bytes := st.bytes.writeN p.loc n v,
                owners := if st.ownerOf p.loc = freeOwner then Table.set freeOwner st.owners (ownerKey p.loc) p.key else st.owners }).onStore
        fun st => st.wroteLines p.loc n p.key).cur = s.cur from (remember_frame s p.loc n).2.2.1]

/-- A write where no sync word can be reached by arrivals (R180) and that leaves nothing unpredictable (R74, R183) is performed as it stands. -/
theorem performWrite_frame (s : State) (cx : Ctx) (p : Spot) (n v : Nat) (o : Order) (h : spaceOf p.loc ≠ .host) (hs : s.syncHit p.loc n = [])
    (hw : s.wild p n o.cas = []) :
    (s.performWrite cx p n v o).store.bytes = s.store.bytes.writeN p.loc n v
      ∧ ∃ l w, (s.performWrite cx p n v o).cur = { s.cur with links := l, wait := { s.cur.wait with woken := w } } := by
  unfold State.performWrite
  split
  · exact absurd ‹_› h
  · rw [hw]; unfold State.blur State.performOwn; rw [hs]; exact performHere_frame s cx p n v o

/-! ### Traffic that one cycle sends holds nothing of that cycle (R36) -/

/-- A port that sends the traffic of a cycle holds what it held: the traffic of earlier cycles alone makes others wait. -/
theorem Port.send_waiting (p : Port) (now : Nat) :
    (p.send (.access now)).waiting.any (PortOut.since now) = p.waiting.any (PortOut.since now) := by
  unfold Port.send
  split
  · simp [PortOut.since]
  · rfl

theorem Port.send_ne_fresh (p : Port) (x : PortOut) : p.send x ≠ Port.fresh := by
  unfold Port.send
  split
  all_goals
    intro h
    simp [Port.fresh, Port.mk.injEq] at h

/-- A die after a port has changed. -/
theorem onScalePort_die (s : State) (d j : Nat) (f : Port → Port) (e : Nat) :
    (s.onScalePort d j f).die e
      = if d % 4 = e % 4 then { s.die d with ports := Table.set Port.fresh (s.die d).ports j (f ((s.die d).port j)) } else s.die e := by
  simp only [State.onScalePort, State.onDie, State.die, Vector.getElem_set]

/-- The traffic that waits at any port for an earlier cycle, after a port has sent traffic of this one. -/
theorem send_waits (s : State) (d j e i : Nat) :
    (((s.onScalePort d j fun p => p.send (.access s.cycle)).die e).port i).waiting.any (PortOut.since s.cycle)
      = ((s.die e).port i).waiting.any (PortOut.since s.cycle) := by
  rw [onScalePort_die]
  split
  · next h =>
    have he : s.die e = s.die d := by simp only [State.die, h]
    simp only [Die.port, Table.get_set _ _ _ _ _ (Port.send_ne_fresh _ _), he]
    split
    · next hij => rw [Port.send_waiting, hij]
    · rfl
  · rfl

/-- Two states in which the same traffic between dies is held. -/
structure SameLinks (s t : State) : Prop where
  links : t.links = s.links
  cycle : t.cycle = s.cycle
  up : ∀ d, (t.die d).up = (s.die d).up
  waits : ∀ d i, ((t.die d).port i).waiting.any (PortOut.since s.cycle) = ((s.die d).port i).waiting.any (PortOut.since s.cycle)

theorem SameLinks.refl (s : State) : SameLinks s s := ⟨rfl, rfl, fun _ => rfl, fun _ _ => rfl⟩

theorem SameLinks.trans {s t u : State} (h : SameLinks s t) (k : SameLinks t u) : SameLinks s u :=
  ⟨k.links.trans h.links, k.cycle.trans h.cycle, fun d => (k.up d).trans (h.up d),
    fun d i => by have := k.waits d i; rw [h.cycle] at this; exact this.trans (h.waits d i)⟩

theorem SameLinks.trafficHeld {s t : State} (h : SameLinks s t) (a b : Nat) : t.trafficHeld a b = s.trafficHeld a b := by
  simp only [State.trafficHeld, State.linkBusy, State.linkGone, State.linkFull, State.detour, h.links, h.cycle, h.up, h.waits]

theorem SameLinks.linkHeld {s t : State} (h : SameLinks s t) (die loc : Nat) : t.linkHeld die loc = s.linkHeld die loc := by
  simp only [State.linkHeld, h.trafficHeld]

/-- A port that sends traffic of the cycle. -/
theorem sameLinks_send (s : State) (d j : Nat) : SameLinks s (s.onScalePort d j fun p => p.send (.access s.cycle)) := by
  refine ⟨rfl, rfl, fun e => ?_, fun e i => send_waits s d j e i⟩
  rw [onScalePort_die]
  split
  · next h => simp only [State.die, h]
  · rfl

/-- Traffic over a link holds no other traffic of its cycle. -/
theorem sameLinks_overLink (s : State) (a b : Nat) : SameLinks s (s.overLink a b) := by
  unfold State.overLink
  dsimp only
  split
  · exact .refl s
  · split
    · exact sameLinks_send s a _
    · split
      · next c _ => exact (sameLinks_send s a (36 + c)).trans (sameLinks_send _ c (36 + b))
      · exact .refl s

/-- Nor does an access that crosses one. -/
theorem sameLinks_crosses (s : State) (die loc : Nat) : SameLinks s (s.crosses die loc) := by
  unfold State.crosses
  split
  all_goals first
    | exact sameLinks_overLink s die (homeDie loc)
    | exact .refl s

/-- A read that is no acquire holds no traffic of its cycle. -/
theorem sameLinks_performRead (s : State) (cx : Ctx) (p : Spot) (n : Nat) (o : Order) (h : o.acq = false) :
    SameLinks s (s.performRead cx p n o).2 := by
  have audit : SameLinks s (s.audit cx.cls false p.loc n) := by
    unfold State.audit
    split
    · exact .refl s
    · split <;> exact ⟨rfl, rfl, fun _ => rfl, fun _ _ => rfl⟩
  simpa [State.performRead, h] using audit.trans (sameLinks_crosses _ cx.die p.loc)

end Sys2Proof.Machine
end

