-- ==== Sys2Proof/Laws/PerInstr.lean ====
section
/-! SUPPORT. The family `Fits`: the word of a scalar instruction has 32 bits, that of a vector instruction 64 (R281, R288); one
lemma per constructor of `Instr`. -/

set_option Elab.async false

namespace Sys2Proof.Laws.Fits

/-- The encoded word has the width of its kind (R281, R288). -/
def Statement (i : Instr) : Prop :=
  match encode i with
  | .scalar w => w < 2 ^ 32
  | .vector w => w < 2 ^ 64
  | .event => True

/-- A word with 1 fields. -/
theorem place1 {m x0 l0 : Nat} (h : m + x0 * 2 ^ l0 < 2 ^ 32) :
    place m [(x0, l0)] < 2 ^ 32 := h

/-- A word with 2 fields. -/
theorem place2 {m x0 l0 x1 l1 : Nat} (h : m + x0 * 2 ^ l0 + x1 * 2 ^ l1 < 2 ^ 32) :
    place m [(x0, l0), (x1, l1)] < 2 ^ 32 := h

/-- A word with 3 fields. -/
theorem place3 {m x0 l0 x1 l1 x2 l2 : Nat} (h : m + x0 * 2 ^ l0 + x1 * 2 ^ l1 + x2 * 2 ^ l2 < 2 ^ 32) :
    place m [(x0, l0), (x1, l1), (x2, l2)] < 2 ^ 32 := h

/-- A word with 4 fields. -/
theorem place4 {m x0 l0 x1 l1 x2 l2 x3 l3 : Nat} (h : m + x0 * 2 ^ l0 + x1 * 2 ^ l1 + x2 * 2 ^ l2 + x3 * 2 ^ l3 < 2 ^ 32) :
    place m [(x0, l0), (x1, l1), (x2, l2), (x3, l3)] < 2 ^ 32 := h

/-- A word with 5 fields. -/
theorem place5 {m x0 l0 x1 l1 x2 l2 x3 l3 x4 l4 : Nat} (h : m + x0 * 2 ^ l0 + x1 * 2 ^ l1 + x2 * 2 ^ l2 + x3 * 2 ^ l3 + x4 * 2 ^ l4 < 2 ^ 32) :
    place m [(x0, l0), (x1, l1), (x2, l2), (x3, l3), (x4, l4)] < 2 ^ 32 := h

/-- A word with 6 fields. -/
theorem place6 {m x0 l0 x1 l1 x2 l2 x3 l3 x4 l4 x5 l5 : Nat} (h : m + x0 * 2 ^ l0 + x1 * 2 ^ l1 + x2 * 2 ^ l2 + x3 * 2 ^ l3 + x4 * 2 ^ l4 + x5 * 2 ^ l5 < 2 ^ 32) :
    place m [(x0, l0), (x1, l1), (x2, l2), (x3, l3), (x4, l4), (x5, l5)] < 2 ^ 32 := h

/-- A word with 7 fields. -/
theorem place7 {m x0 l0 x1 l1 x2 l2 x3 l3 x4 l4 x5 l5 x6 l6 : Nat} (h : m + x0 * 2 ^ l0 + x1 * 2 ^ l1 + x2 * 2 ^ l2 + x3 * 2 ^ l3 + x4 * 2 ^ l4 + x5 * 2 ^ l5 + x6 * 2 ^ l6 < 2 ^ 32) :
    place m [(x0, l0), (x1, l1), (x2, l2), (x3, l3), (x4, l4), (x5, l5), (x6, l6)] < 2 ^ 32 := h

/-- A scalar word below 2^32 will do. -/
theorem of_scalar {i : Instr} {w : Nat} (h : encode i = .scalar w) (hw : w < 2 ^ 32) : Statement i := by
  simpa only [Statement, h] using hw

/-- A vector word of a 7-bit VOP has 64 bits. -/
theorem vword_lt (n : Nat) (f : VFields) (h : n < 128) : vword n f < 2 ^ 64 := by
  obtain ⟨c, d, a, b, e, m, z, fm, fn, q, i⟩ := f
  have := d.isLt; have := a.isLt; have := b.isLt; have := e.isLt; have := m.isLt; have := fm.isLt; have := fn.isLt; have := q.isLt; have := i.isLt
  simp only [vword]; split <;> split <;> omega

/-- A vector word of a 7-bit VOP will do. -/
theorem of_vector {i : Instr} {n : Nat} {f : VFields} (h : encode i = .vector (vword n f)) (hn : n < 128) : Statement i := by
  simpa only [Statement, h] using vword_lt n f hn

/-- An event has no word. -/
theorem of_event {i : Instr} (h : encode i = .event) : Statement i := by
  simp only [Statement, h]

theorem add x0 x1 x2 : Statement (.add x0 x1 x2) := by
  have := x0.isLt; have := x1.isLt; have := x2.isLt
  exact of_scalar (w := place 0x04000000 [(x0.toNat, 21), (x1.toNat, 16), (x2.toNat, 11)]) rfl (place3 (by omega))
theorem sub x0 x1 x2 : Statement (.sub x0 x1 x2) := by
  have := x0.isLt; have := x1.isLt; have := x2.isLt
  exact of_scalar (w := place 0x04000001 [(x0.toNat, 21), (x1.toNat, 16), (x2.toNat, 11)]) rfl (place3 (by omega))
theorem and x0 x1 x2 : Statement (.and x0 x1 x2) := by
  have := x0.isLt; have := x1.isLt; have := x2.isLt
  exact of_scalar (w := place 0x04000002 [(x0.toNat, 21), (x1.toNat, 16), (x2.toNat, 11)]) rfl (place3 (by omega))
theorem or x0 x1 x2 : Statement (.or x0 x1 x2) := by
  have := x0.isLt; have := x1.isLt; have := x2.isLt
  exact of_scalar (w := place 0x04000003 [(x0.toNat, 21), (x1.toNat, 16), (x2.toNat, 11)]) rfl (place3 (by omega))
theorem xor x0 x1 x2 : Statement (.xor x0 x1 x2) := by
  have := x0.isLt; have := x1.isLt; have := x2.isLt
  exact of_scalar (w := place 0x04000004 [(x0.toNat, 21), (x1.toNat, 16), (x2.toNat, 11)]) rfl (place3 (by omega))
theorem andn x0 x1 x2 : Statement (.andn x0 x1 x2) := by
  have := x0.isLt; have := x1.isLt; have := x2.isLt
  exact of_scalar (w := place 0x04000005 [(x0.toNat, 21), (x1.toNat, 16), (x2.toNat, 11)]) rfl (place3 (by omega))
theorem shl x0 x1 x2 : Statement (.shl x0 x1 x2) := by
  have := x0.isLt; have := x1.isLt; have := x2.isLt
  exact of_scalar (w := place 0x04000006 [(x0.toNat, 21), (x1.toNat, 16), (x2.toNat, 11)]) rfl (place3 (by omega))
theorem shr x0 x1 x2 : Statement (.shr x0 x1 x2) := by
  have := x0.isLt; have := x1.isLt; have := x2.isLt
  exact of_scalar (w := place 0x04000007 [(x0.toNat, 21), (x1.toNat, 16), (x2.toNat, 11)]) rfl (place3 (by omega))
theorem sar x0 x1 x2 : Statement (.sar x0 x1 x2) := by
  have := x0.isLt; have := x1.isLt; have := x2.isLt
  exact of_scalar (w := place 0x04000008 [(x0.toNat, 21), (x1.toNat, 16), (x2.toNat, 11)]) rfl (place3 (by omega))
theorem slt x0 x1 x2 : Statement (.slt x0 x1 x2) := by
  have := x0.isLt; have := x1.isLt; have := x2.isLt
  exact of_scalar (w := place 0x04000009 [(x0.toNat, 21), (x1.toNat, 16), (x2.toNat, 11)]) rfl (place3 (by omega))
theorem sltu x0 x1 x2 : Statement (.sltu x0 x1 x2) := by
  have := x0.isLt; have := x1.isLt; have := x2.isLt
  exact of_scalar (w := place 0x0400000A [(x0.toNat, 21), (x1.toNat, 16), (x2.toNat, 11)]) rfl (place3 (by omega))
theorem min x0 x1 x2 : Statement (.min x0 x1 x2) := by
  have := x0.isLt; have := x1.isLt; have := x2.isLt
  exact of_scalar (w := place 0x0400000B [(x0.toNat, 21), (x1.toNat, 16), (x2.toNat, 11)]) rfl (place3 (by omega))
theorem max x0 x1 x2 : Statement (.max x0 x1 x2) := by
  have := x0.isLt; have := x1.isLt; have := x2.isLt
  exact of_scalar (w := place 0x0400000C [(x0.toNat, 21), (x1.toNat, 16), (x2.toNat, 11)]) rfl (place3 (by omega))
theorem minu x0 x1 x2 : Statement (.minu x0 x1 x2) := by
  have := x0.isLt; have := x1.isLt; have := x2.isLt
  exact of_scalar (w := place 0x0400000D [(x0.toNat, 21), (x1.toNat, 16), (x2.toNat, 11)]) rfl (place3 (by omega))
theorem maxu x0 x1 x2 : Statement (.maxu x0 x1 x2) := by
  have := x0.isLt; have := x1.isLt; have := x2.isLt
  exact of_scalar (w := place 0x0400000E [(x0.toNat, 21), (x1.toNat, 16), (x2.toNat, 11)]) rfl (place3 (by omega))
theorem mul x0 x1 x2 : Statement (.mul x0 x1 x2) := by
  have := x0.isLt; have := x1.isLt; have := x2.isLt
  exact of_scalar (w := place 0x04000010 [(x0.toNat, 21), (x1.toNat, 16), (x2.toNat, 11)]) rfl (place3 (by omega))
theorem mulh x0 x1 x2 : Statement (.mulh x0 x1 x2) := by
  have := x0.isLt; have := x1.isLt; have := x2.isLt
  exact of_scalar (w := place 0x04000011 [(x0.toNat, 21), (x1.toNat, 16), (x2.toNat, 11)]) rfl (place3 (by omega))
theorem mulhu x0 x1 x2 : Statement (.mulhu x0 x1 x2) := by
  have := x0.isLt; have := x1.isLt; have := x2.isLt
  exact of_scalar (w := place 0x04000012 [(x0.toNat, 21), (x1.toNat, 16), (x2.toNat, 11)]) rfl (place3 (by omega))
theorem div x0 x1 x2 : Statement (.div x0 x1 x2) := by
  have := x0.isLt; have := x1.isLt; have := x2.isLt
  exact of_scalar (w := place 0x04000014 [(x0.toNat, 21), (x1.toNat, 16), (x2.toNat, 11)]) rfl (place3 (by omega))
theorem divu x0 x1 x2 : Statement (.divu x0 x1 x2) := by
  have := x0.isLt; have := x1.isLt; have := x2.isLt
  exact of_scalar (w := place 0x04000015 [(x0.toNat, 21), (x1.toNat, 16), (x2.toNat, 11)]) rfl (place3 (by omega))
theorem rem x0 x1 x2 : Statement (.rem x0 x1 x2) := by
  have := x0.isLt; have := x1.isLt; have := x2.isLt
  exact of_scalar (w := place 0x04000016 [(x0.toNat, 21), (x1.toNat, 16), (x2.toNat, 11)]) rfl (place3 (by omega))
theorem remu x0 x1 x2 : Statement (.remu x0 x1 x2) := by
  have := x0.isLt; have := x1.isLt; have := x2.isLt
  exact of_scalar (w := place 0x04000017 [(x0.toNat, 21), (x1.toNat, 16), (x2.toNat, 11)]) rfl (place3 (by omega))
theorem clz x0 x1 : Statement (.clz x0 x1) := by
  have := x0.isLt; have := x1.isLt
  exact of_scalar (w := place 0x04000018 [(x0.toNat, 21), (x1.toNat, 16)]) rfl (place2 (by omega))
theorem ctz x0 x1 : Statement (.ctz x0 x1) := by
  have := x0.isLt; have := x1.isLt
  exact of_scalar (w := place 0x04000019 [(x0.toNat, 21), (x1.toNat, 16)]) rfl (place2 (by omega))
theorem popc x0 x1 : Statement (.popc x0 x1) := by
  have := x0.isLt; have := x1.isLt
  exact of_scalar (w := place 0x0400001A [(x0.toNat, 21), (x1.toNat, 16)]) rfl (place2 (by omega))
theorem sext x0 x1 x2 : Statement (.sext x0 x1 x2) := by
  have := x0.isLt; have := x1.isLt; have := x2.isLt
  exact of_scalar (w := place 0x0400001C [(x0.toNat, 21), (x1.toNat, 16), (x2.toNat, 6)]) rfl (place3 (by omega))
theorem zext x0 x1 x2 : Statement (.zext x0 x1 x2) := by
  have := x0.isLt; have := x1.isLt; have := x2.isLt
  exact of_scalar (w := place 0x0400001D [(x0.toNat, 21), (x1.toNat, 16), (x2.toNat, 6)]) rfl (place3 (by omega))
theorem addi x0 x1 x2 : Statement (.addi x0 x1 x2) := by
  have := x0.isLt; have := x1.isLt; have := x2.isLt
  exact of_scalar (w := place 0x08000000 [(x0.toNat, 21), (x1.toNat, 16), (x2.toNat, 0)]) rfl (place3 (by omega))
theorem andi x0 x1 x2 : Statement (.andi x0 x1 x2) := by
  have := x0.isLt; have := x1.isLt; have := x2.isLt
  exact of_scalar (w := place 0x0C000000 [(x0.toNat, 21), (x1.toNat, 16), (x2.toNat, 0)]) rfl (place3 (by omega))
theorem ori x0 x1 x2 : Statement (.ori x0 x1 x2) := by
  have := x0.isLt; have := x1.isLt; have := x2.isLt
  exact of_scalar (w := place 0x10000000 [(x0.toNat, 21), (x1.toNat, 16), (x2.toNat, 0)]) rfl (place3 (by omega))
theorem xori x0 x1 x2 : Statement (.xori x0 x1 x2) := by
  have := x0.isLt; have := x1.isLt; have := x2.isLt
  exact of_scalar (w := place 0x14000000 [(x0.toNat, 21), (x1.toNat, 16), (x2.toNat, 0)]) rfl (place3 (by omega))
theorem shli x0 x1 x2 : Statement (.shli x0 x1 x2) := by
  have := x0.isLt; have := x1.isLt; have := x2.isLt
  exact of_scalar (w := place 0x18000000 [(x0.toNat, 21), (x1.toNat, 16), (x2.toNat, 0)]) rfl (place3 (by omega))
theorem shri x0 x1 x2 : Statement (.shri x0 x1 x2) := by
  have := x0.isLt; have := x1.isLt; have := x2.isLt
  exact of_scalar (w := place 0x1C000000 [(x0.toNat, 21), (x1.toNat, 16), (x2.toNat, 0)]) rfl (place3 (by omega))
theorem sari x0 x1 x2 : Statement (.sari x0 x1 x2) := by
  have := x0.isLt; have := x1.isLt; have := x2.isLt
  exact of_scalar (w := place 0x20000000 [(x0.toNat, 21), (x1.toNat, 16), (x2.toNat, 0)]) rfl (place3 (by omega))
theorem slti x0 x1 x2 : Statement (.slti x0 x1 x2) := by
  have := x0.isLt; have := x1.isLt; have := x2.isLt
  exact of_scalar (w := place 0x24000000 [(x0.toNat, 21), (x1.toNat, 16), (x2.toNat, 0)]) rfl (place3 (by omega))
theorem sltui x0 x1 x2 : Statement (.sltui x0 x1 x2) := by
  have := x0.isLt; have := x1.isLt; have := x2.isLt
  exact of_scalar (w := place 0x28000000 [(x0.toNat, 21), (x1.toNat, 16), (x2.toNat, 0)]) rfl (place3 (by omega))
theorem ldi x0 x1 x2 : Statement (.ldi x0 x1 x2) := by
  have := x0.isLt; have := x1.isLt; have := x2.isLt
  exact of_scalar (w := place 0x2C000000 [(x0.toNat, 21), (x1.toNat, 16), (x2.toNat, 0)]) rfl (place3 (by omega))
theorem ldiK x0 x1 x2 : Statement (.ldiK x0 x1 x2) := by
  have := x0.isLt; have := x1.isLt; have := x2.isLt
  exact of_scalar (w := place 0x2C040000 [(x0.toNat, 21), (x1.toNat, 16), (x2.toNat, 0)]) rfl (place3 (by omega))
theorem addpc x0 x1 : Statement (.addpc x0 x1) := by
  have := x0.isLt; have := x1.isLt
  exact of_scalar (w := place 0x30000000 [(x0.toNat, 21), (x1.toNat, 0)]) rfl (place2 (by omega))
theorem beq x0 x1 x2 : Statement (.beq x0 x1 x2) := by
  have := x0.isLt; have := x1.isLt; have := x2.isLt
  exact of_scalar (w := place 0x34000000 [(x0.toNat, 21), (x1.toNat, 16), (x2.toNat, 0)]) rfl (place3 (by omega))
theorem bne x0 x1 x2 : Statement (.bne x0 x1 x2) := by
  have := x0.isLt; have := x1.isLt; have := x2.isLt
  exact of_scalar (w := place 0x38000000 [(x0.toNat, 21), (x1.toNat, 16), (x2.toNat, 0)]) rfl (place3 (by omega))
theorem blt x0 x1 x2 : Statement (.blt x0 x1 x2) := by
  have := x0.isLt; have := x1.isLt; have := x2.isLt
  exact of_scalar (w := place 0x3C000000 [(x0.toNat, 21), (x1.toNat, 16), (x2.toNat, 0)]) rfl (place3 (by omega))
theorem bge x0 x1 x2 : Statement (.bge x0 x1 x2) := by
  have := x0.isLt; have := x1.isLt; have := x2.isLt
  exact of_scalar (w := place 0x40000000 [(x0.toNat, 21), (x1.toNat, 16), (x2.toNat, 0)]) rfl (place3 (by omega))
theorem bltu x0 x1 x2 : Statement (.bltu x0 x1 x2) := by
  have := x0.isLt; have := x1.isLt; have := x2.isLt
  exact of_scalar (w := place 0x44000000 [(x0.toNat, 21), (x1.toNat, 16), (x2.toNat, 0)]) rfl (place3 (by omega))
theorem bgeu x0 x1 x2 : Statement (.bgeu x0 x1 x2) := by
  have := x0.isLt; have := x1.isLt; have := x2.isLt
  exact of_scalar (w := place 0x48000000 [(x0.toNat, 21), (x1.toNat, 16), (x2.toNat, 0)]) rfl (place3 (by omega))
theorem j x0 x1 : Statement (.j x0 x1) := by
  have := x0.isLt; have := x1.isLt
  exact of_scalar (w := place 0x4C000000 [(x0.toNat, 21), (x1.toNat, 0)]) rfl (place2 (by omega))
theorem jr x0 x1 x2 : Statement (.jr x0 x1 x2) := by
  have := x0.isLt; have := x1.isLt; have := x2.isLt
  exact of_scalar (w := place 0x50000000 [(x0.toNat, 21), (x1.toNat, 16), (x2.toNat, 0)]) rfl (place3 (by omega))
theorem ld x0 x1 x2 x3 x4 x5 : Statement (.ld x0 x1 x2 x3 x4 x5) := by
  have := x0.isLt; have := x1.isLt; have := x2.isLt; have := x3.isLt; have := x4.isLt; have := x5.isLt
  exact of_scalar (w := place 0x54000000 [(x0.toNat, 21), (x1.toNat, 16), (x2.toNat, 14), (x3.toNat, 13), (x4.toNat, 10), (x5.toNat, 0)]) rfl (place6 (by omega))
theorem ldu x0 x1 x2 x3 x4 x5 : Statement (.ldu x0 x1 x2 x3 x4 x5) := by
  have := x0.isLt; have := x1.isLt; have := x2.isLt; have := x3.isLt; have := x4.isLt; have := x5.isLt
  exact of_scalar (w := place 0x58000000 [(x0.toNat, 21), (x1.toNat, 16), (x2.toNat, 14), (x3.toNat, 13), (x4.toNat, 10), (x5.toNat, 0)]) rfl (place6 (by omega))
theorem st x0 x1 x2 x3 x4 x5 : Statement (.st x0 x1 x2 x3 x4 x5) := by
  have := x0.isLt; have := x1.isLt; have := x2.isLt; have := x3.isLt; have := x4.isLt; have := x5.isLt
  exact of_scalar (w := place 0x5C000000 [(x0.toNat, 21), (x1.toNat, 16), (x2.toNat, 14), (x3.toNat, 13), (x4.toNat, 10), (x5.toNat, 0)]) rfl (place6 (by omega))
theorem amo x0 x1 x2 x3 x4 x5 x6 : Statement (.amo x0 x1 x2 x3 x4 x5 x6) := by
  have := x0.isLt; have := x1.isLt; have := x2.isLt; have := x3.isLt; have := x4.isLt; have := x5.isLt; have := x6.isLt
  exact of_scalar (w := place 0x60000020 [(x0.toNat, 21), (x1.toNat, 16), (x2.toNat, 11), (x3.toNat, 9), (x4.toNat, 6), (x5.toNat, 4), (x6.toNat, 0)]) rfl (place7 (by omega))
theorem cas x0 x1 x2 x3 x4 x5 : Statement (.cas x0 x1 x2 x3 x4 x5) := by
  have := x0.isLt; have := x1.isLt; have := x2.isLt; have := x3.isLt; have := x4.isLt; have := x5.isLt
  exact of_scalar (w := place 0x64000020 [(x0.toNat, 21), (x1.toNat, 16), (x2.toNat, 11), (x3.toNat, 9), (x4.toNat, 6), (x5.toNat, 4)]) rfl (place6 (by omega))
theorem fadd x0 x1 x2 x3 x4 : Statement (.fadd x0 x1 x2 x3 x4) := by
  have := x0.isLt; have := x1.isLt; have := x2.isLt; have := x3.isLt; have := x4.isLt
  exact of_scalar (w := place 0x68000000 [(x0.toNat, 21), (x1.toNat, 16), (x2.toNat, 11), (x3.toNat, 4), (x4.toNat, 3)]) rfl (place5 (by omega))
theorem fsub x0 x1 x2 x3 x4 : Statement (.fsub x0 x1 x2 x3 x4) := by
  have := x0.isLt; have := x1.isLt; have := x2.isLt; have := x3.isLt; have := x4.isLt
  exact of_scalar (w := place 0x68000080 [(x0.toNat, 21), (x1.toNat, 16), (x2.toNat, 11), (x3.toNat, 4), (x4.toNat, 3)]) rfl (place5 (by omega))
theorem fmul x0 x1 x2 x3 x4 : Statement (.fmul x0 x1 x2 x3 x4) := by
  have := x0.isLt; have := x1.isLt; have := x2.isLt; have := x3.isLt; have := x4.isLt
  exact of_scalar (w := place 0x68000100 [(x0.toNat, 21), (x1.toNat, 16), (x2.toNat, 11), (x3.toNat, 4), (x4.toNat, 3)]) rfl (place5 (by omega))
theorem fdiv x0 x1 x2 x3 x4 : Statement (.fdiv x0 x1 x2 x3 x4) := by
  have := x0.isLt; have := x1.isLt; have := x2.isLt; have := x3.isLt; have := x4.isLt
  exact of_scalar (w := place 0x68000180 [(x0.toNat, 21), (x1.toNat, 16), (x2.toNat, 11), (x3.toNat, 4), (x4.toNat, 3)]) rfl (place5 (by omega))
theorem fsqrt x0 x1 x2 x3 : Statement (.fsqrt x0 x1 x2 x3) := by
  have := x0.isLt; have := x1.isLt; have := x2.isLt; have := x3.isLt
  exact of_scalar (w := place 0x68000200 [(x0.toNat, 21), (x1.toNat, 16), (x2.toNat, 4), (x3.toNat, 3)]) rfl (place4 (by omega))
theorem fmin x0 x1 x2 x3 : Statement (.fmin x0 x1 x2 x3) := by
  have := x0.isLt; have := x1.isLt; have := x2.isLt; have := x3.isLt
  exact of_scalar (w := place 0x68000280 [(x0.toNat, 21), (x1.toNat, 16), (x2.toNat, 11), (x3.toNat, 3)]) rfl (place4 (by omega))
theorem fmax x0 x1 x2 x3 : Statement (.fmax x0 x1 x2 x3) := by
  have := x0.isLt; have := x1.isLt; have := x2.isLt; have := x3.isLt
  exact of_scalar (w := place 0x68000300 [(x0.toNat, 21), (x1.toNat, 16), (x2.toNat, 11), (x3.toNat, 3)]) rfl (place4 (by omega))
theorem fcmp x0 x1 x2 x3 x4 : Statement (.fcmp x0 x1 x2 x3 x4) := by
  have := x0.isLt; have := x1.isLt; have := x2.isLt; have := x3.isLt; have := x4.isLt
  exact of_scalar (w := place 0x68000380 [(x0.toNat, 21), (x1.toNat, 16), (x2.toNat, 11), (x3.toNat, 3), (x4.toNat, 0)]) rfl (place5 (by omega))
theorem fclass x0 x1 x2 : Statement (.fclass x0 x1 x2) := by
  have := x0.isLt; have := x1.isLt; have := x2.isLt
  exact of_scalar (w := place 0x68000400 [(x0.toNat, 21), (x1.toNat, 16), (x2.toNat, 3)]) rfl (place3 (by omega))
theorem fma x0 x1 x2 x3 x4 x5 : Statement (.fma x0 x1 x2 x3 x4 x5) := by
  have := x0.isLt; have := x1.isLt; have := x2.isLt; have := x3.isLt; have := x4.isLt; have := x5.isLt
  exact of_scalar (w := place 0x6C000000 [(x0.toNat, 21), (x1.toNat, 16), (x2.toNat, 11), (x3.toNat, 6), (x4.toNat, 3), (x5.toNat, 2)]) rfl (place6 (by omega))
theorem fcvt x0 x1 x2 x3 x4 x5 : Statement (.fcvt x0 x1 x2 x3 x4 x5) := by
  have := x0.isLt; have := x1.isLt; have := x2.isLt; have := x3.isLt; have := x4.isLt; have := x5.isLt
  exact of_scalar (w := place 0x70000000 [(x0.toNat, 21), (x1.toNat, 16), (x2.toNat, 11), (x3.toNat, 7), (x4.toNat, 3), (x5.toNat, 0)]) rfl (place6 (by omega))
theorem fence x0 x1 : Statement (.fence x0 x1) := by
  have := x0.isLt; have := x1.isLt
  exact of_scalar (w := place 0x74000000 [(x0.toNat, 8), (x1.toNat, 4)]) rfl (place2 (by omega))
theorem wait x0 x1 : Statement (.wait x0 x1) := by
  have := x0.isLt; have := x1.isLt
  exact of_scalar (w := place 0x74000001 [(x0.toNat, 21), (x1.toNat, 4)]) rfl (place2 (by omega))
theorem barj x0 x1 : Statement (.barj x0 x1) := by
  have := x0.isLt; have := x1.isLt
  exact of_scalar (w := place 0x74000002 [(x0.toNat, 21), (x1.toNat, 4)]) rfl (place2 (by omega))
theorem bara x0 x1 : Statement (.bara x0 x1) := by
  have := x0.isLt; have := x1.isLt
  exact of_scalar (w := place 0x74000003 [(x0.toNat, 21), (x1.toNat, 4)]) rfl (place2 (by omega))
theorem barw x0 x1 : Statement (.barw x0 x1) := by
  have := x0.isLt; have := x1.isLt
  exact of_scalar (w := place 0x74000004 [(x0.toNat, 16), (x1.toNat, 4)]) rfl (place2 (by omega))
theorem barl x0 : Statement (.barl x0) := by
  have := x0.isLt
  exact of_scalar (w := place 0x74000005 [(x0.toNat, 4)]) rfl (place1 (by omega))
theorem msg x0 x1 x2 x3 : Statement (.msg x0 x1 x2 x3) := by
  have := x0.isLt; have := x1.isLt; have := x2.isLt; have := x3.isLt
  exact of_scalar (w := place 0x78000000 [(x0.toNat, 16), (x1.toNat, 11), (x2.toNat, 5), (x3.toNat, 4)]) rfl (place4 (by omega))
theorem mret x0 : Statement (.mret x0) := by
  have := x0.isLt
  exact of_scalar (w := place 0x78000001 [(x0.toNat, 16)]) rfl (place1 (by omega))
theorem token x0 x1 : Statement (.token x0 x1) := by
  have := x0.isLt; have := x1.isLt
  exact of_scalar (w := place 0x78000002 [(x0.toNat, 16), (x1.toNat, 11)]) rfl (place2 (by omega))
theorem texit : Statement .texit := of_scalar (w := place 0x78000003 []) rfl (by decide)
theorem tfail x0 : Statement (.tfail x0) := by
  have := x0.isLt
  exact of_scalar (w := place 0x78000004 [(x0.toNat, 16)]) rfl (place1 (by omega))
theorem trap x0 : Statement (.trap x0) := by
  have := x0.isLt
  exact of_scalar (w := place 0x7C000000 [(x0.toNat, 16)]) rfl (place1 (by omega))
theorem tret : Statement .tret := of_scalar (w := place 0x7C000001 []) rfl (by decide)
theorem brk : Statement .brk := of_scalar (w := place 0x7C000002 []) rfl (by decide)
theorem cflush x0 x1 : Statement (.cflush x0 x1) := by
  have := x0.isLt; have := x1.isLt
  exact of_scalar (w := place 0x7C000003 [(x0.toNat, 16), (x1.toNat, 4)]) rfl (place2 (by omega))
theorem tlbi x0 x1 x2 : Statement (.tlbi x0 x1 x2) := by
  have := x0.isLt; have := x1.isLt; have := x2.isLt
  exact of_scalar (w := place 0x7C000004 [(x0.toNat, 16), (x1.toNat, 11), (x2.toNat, 4)]) rfl (place3 (by omega))
theorem srd x0 x1 : Statement (.srd x0 x1) := by
  have := x0.isLt; have := x1.isLt
  exact of_scalar (w := place 0x80000000 [(x0.toNat, 21), (x1.toNat, 0)]) rfl (place2 (by omega))
theorem swr x0 x1 : Statement (.swr x0 x1) := by
  have := x0.isLt; have := x1.isLt
  exact of_scalar (w := place 0x84000000 [(x0.toNat, 16), (x1.toNat, 0)]) rfl (place2 (by omega))
theorem srs x0 x1 x2 : Statement (.srs x0 x1 x2) := by
  have := x0.isLt; have := x1.isLt; have := x2.isLt
  exact of_scalar (w := place 0x88000000 [(x0.toNat, 21), (x1.toNat, 16), (x2.toNat, 0)]) rfl (place3 (by omega))
theorem src x0 x1 x2 : Statement (.src x0 x1 x2) := by
  have := x0.isLt; have := x1.isLt; have := x2.isLt
  exact of_scalar (w := place 0x8C000000 [(x0.toNat, 21), (x1.toNat, 16), (x2.toNat, 0)]) rfl (place3 (by omega))
theorem vlease x0 x1 : Statement (.vlease x0 x1) := by
  have := x0.isLt; have := x1.isLt
  exact of_scalar (w := place 0x90000000 [(x0.toNat, 21), (x1.toNat, 16)]) rfl (place2 (by omega))
theorem vsetl x0 x1 x2 x3 x4 : Statement (.vsetl x0 x1 x2 x3 x4) := by
  have := x0.isLt; have := x1.isLt; have := x2.isLt; have := x3.isLt; have := x4.isLt
  exact of_scalar (w := place 0x90000001 [(x0.toNat, 21), (x1.toNat, 16), (x2.toNat, 9), (x3.toNat, 8), (x4.toNat, 4)]) rfl (place5 (by omega))
theorem vfetch x0 : Statement (.vfetch x0) := by
  have := x0.isLt
  exact of_scalar (w := place 0x90000002 [(x0.toNat, 16)]) rfl (place1 (by omega))
theorem vsync x0 : Statement (.vsync x0) := by
  have := x0.isLt
  exact of_scalar (w := place 0x90000003 [(x0.toNat, 21)]) rfl (place1 (by omega))
theorem vcommit : Statement .vcommit := of_scalar (w := place 0x90000004 []) rfl (by decide)
theorem vrel : Statement .vrel := of_scalar (w := place 0x90000005 []) rfl (by decide)
theorem mbegin x0 : Statement (.mbegin x0) := by
  have := x0.isLt
  exact of_scalar (w := place 0x90000006 [(x0.toNat, 4)]) rfl (place1 (by omega))
theorem mend : Statement .mend := of_scalar (w := place 0x90000007 []) rfl (by decide)
theorem qset x0 x1 : Statement (.qset x0 x1) := by
  have := x0.isLt; have := x1.isLt
  exact of_scalar (w := place 0x94000000 [(x0.toNat, 16), (x1.toNat, 4)]) rfl (place2 (by omega))
theorem qsetOff x0 : Statement (.qsetOff x0) := by
  have := x0.isLt
  exact of_scalar (w := place 0x94000100 [(x0.toNat, 4)]) rfl (place1 (by omega))
theorem qpos x0 x1 x2 : Statement (.qpos x0 x1 x2) := by
  have := x0.isLt; have := x1.isLt; have := x2.isLt
  exact of_scalar (w := place 0x94000001 [(x0.toNat, 21), (x1.toNat, 16), (x2.toNat, 4)]) rfl (place3 (by omega))
theorem qposRd x0 x1 : Statement (.qposRd x0 x1) := by
  have := x0.isLt; have := x1.isLt
  exact of_scalar (w := place 0x94000101 [(x0.toNat, 21), (x1.toNat, 4)]) rfl (place2 (by omega))
theorem qcopy x0 x1 x2 x3 x4 : Statement (.qcopy x0 x1 x2 x3 x4) := by
  have := x0.isLt; have := x1.isLt; have := x2.isLt; have := x3.isLt; have := x4.isLt
  exact of_scalar (w := place 0x94000002 [(x0.toNat, 21), (x1.toNat, 16), (x2.toNat, 11), (x3.toNat, 8), (x4.toNat, 4)]) rfl (place5 (by omega))
theorem qput x0 x1 x2 x3 x4 : Statement (.qput x0 x1 x2 x3 x4) := by
  have := x0.isLt; have := x1.isLt; have := x2.isLt; have := x3.isLt; have := x4.isLt
  exact of_scalar (w := place 0x94000003 [(x0.toNat, 21), (x1.toNat, 16), (x2.toNat, 11), (x3.toNat, 8), (x4.toNat, 4)]) rfl (place5 (by omega))
theorem qfence x0 x1 x2 x3 : Statement (.qfence x0 x1 x2 x3) := by
  have := x0.isLt; have := x1.isLt; have := x2.isLt; have := x3.isLt
  exact of_scalar (w := place 0x94000004 [(x0.toNat, 8), (x1.toNat, 6), (x2.toNat, 5), (x3.toNat, 4)]) rfl (place4 (by omega))
theorem swarm x0 x1 x2 : Statement (.swarm x0 x1 x2) := by
  have := x0.isLt; have := x1.isLt; have := x2.isLt
  exact of_scalar (w := place 0x94000005 [(x0.toNat, 21), (x1.toNat, 16), (x2.toNat, 11)]) rfl (place3 (by omega))
theorem swwait x0 x1 x2 : Statement (.swwait x0 x1 x2) := by
  have := x0.isLt; have := x1.isLt; have := x2.isLt
  exact of_scalar (w := place 0x94000006 [(x0.toNat, 21), (x1.toNat, 16), (x2.toNat, 11)]) rfl (place3 (by omega))
theorem xput x0 x1 x2 : Statement (.xput x0 x1 x2) := by
  have := x0.isLt; have := x1.isLt; have := x2.isLt
  exact of_scalar (w := place 0x98000000 [(x0.toNat, 21), (x1.toNat, 16), (x2.toNat, 11)]) rfl (place3 (by omega))
theorem xget x0 x1 x2 : Statement (.xget x0 x1 x2) := by
  have := x0.isLt; have := x1.isLt; have := x2.isLt
  exact of_scalar (w := place 0x98000001 [(x0.toNat, 21), (x1.toNat, 16), (x2.toNat, 11)]) rfl (place3 (by omega))
theorem xsig x0 x1 : Statement (.xsig x0 x1) := by
  have := x0.isLt; have := x1.isLt
  exact of_scalar (w := place 0x98000002 [(x0.toNat, 16), (x1.toNat, 11)]) rfl (place2 (by omega))
theorem vadd (x0 : VFields) : Statement (.vadd x0) := of_vector (n := 0x01) (f := x0) rfl (by decide)
theorem vsub (x0 : VFields) : Statement (.vsub x0) := of_vector (n := 0x02) (f := x0) rfl (by decide)
theorem vmul (x0 : VFields) : Statement (.vmul x0) := of_vector (n := 0x03) (f := x0) rfl (by decide)
theorem vmulh (x0 : VFields) : Statement (.vmulh x0) := of_vector (n := 0x04) (f := x0) rfl (by decide)
theorem vmulhu (x0 : VFields) : Statement (.vmulhu x0) := of_vector (n := 0x05) (f := x0) rfl (by decide)
theorem vmad (x0 : VFields) : Statement (.vmad x0) := of_vector (n := 0x06) (f := x0) rfl (by decide)
theorem vmin (x0 : VFields) : Statement (.vmin x0) := of_vector (n := 0x07) (f := x0) rfl (by decide)
theorem vmax (x0 : VFields) : Statement (.vmax x0) := of_vector (n := 0x08) (f := x0) rfl (by decide)
theorem vminu (x0 : VFields) : Statement (.vminu x0) := of_vector (n := 0x09) (f := x0) rfl (by decide)
theorem vmaxu (x0 : VFields) : Statement (.vmaxu x0) := of_vector (n := 0x0A) (f := x0) rfl (by decide)
theorem vand (x0 : VFields) : Statement (.vand x0) := of_vector (n := 0x0B) (f := x0) rfl (by decide)
theorem vor (x0 : VFields) : Statement (.vor x0) := of_vector (n := 0x0C) (f := x0) rfl (by decide)
theorem vxor (x0 : VFields) : Statement (.vxor x0) := of_vector (n := 0x0D) (f := x0) rfl (by decide)
theorem vandn (x0 : VFields) : Statement (.vandn x0) := of_vector (n := 0x0E) (f := x0) rfl (by decide)
theorem vshl (x0 : VFields) : Statement (.vshl x0) := of_vector (n := 0x0F) (f := x0) rfl (by decide)
theorem vshr (x0 : VFields) : Statement (.vshr x0) := of_vector (n := 0x10) (f := x0) rfl (by decide)
theorem vsar (x0 : VFields) : Statement (.vsar x0) := of_vector (n := 0x11) (f := x0) rfl (by decide)
theorem vadds (x0 : VFields) : Statement (.vadds x0) := of_vector (n := 0x12) (f := x0) rfl (by decide)
theorem vsubs (x0 : VFields) : Statement (.vsubs x0) := of_vector (n := 0x13) (f := x0) rfl (by decide)
theorem vaddsu (x0 : VFields) : Statement (.vaddsu x0) := of_vector (n := 0x14) (f := x0) rfl (by decide)
theorem vsubsu (x0 : VFields) : Statement (.vsubsu x0) := of_vector (n := 0x15) (f := x0) rfl (by decide)
theorem vabs (x0 : VFields) : Statement (.vabs x0) := of_vector (n := 0x16) (f := x0) rfl (by decide)
theorem vfadd (x0 : VFields) : Statement (.vfadd x0) := of_vector (n := 0x20) (f := x0) rfl (by decide)
theorem vfsub (x0 : VFields) : Statement (.vfsub x0) := of_vector (n := 0x21) (f := x0) rfl (by decide)
theorem vfmul (x0 : VFields) : Statement (.vfmul x0) := of_vector (n := 0x22) (f := x0) rfl (by decide)
theorem vfdiv (x0 : VFields) : Statement (.vfdiv x0) := of_vector (n := 0x23) (f := x0) rfl (by decide)
theorem vfsqrt (x0 : VFields) : Statement (.vfsqrt x0) := of_vector (n := 0x24) (f := x0) rfl (by decide)
theorem vfma (x0 : VFields) : Statement (.vfma x0) := of_vector (n := 0x25) (f := x0) rfl (by decide)
theorem vfmin (x0 : VFields) : Statement (.vfmin x0) := of_vector (n := 0x26) (f := x0) rfl (by decide)
theorem vfmax (x0 : VFields) : Statement (.vfmax x0) := of_vector (n := 0x27) (f := x0) rfl (by decide)
theorem vfsgn (x0 : VFields) : Statement (.vfsgn x0) := of_vector (n := 0x28) (f := x0) rfl (by decide)
theorem vfrcp (x0 : VFields) : Statement (.vfrcp x0) := of_vector (n := 0x29) (f := x0) rfl (by decide)
theorem vfrsq (x0 : VFields) : Statement (.vfrsq x0) := of_vector (n := 0x2A) (f := x0) rfl (by decide)
theorem vfexp2f (x0 : VFields) : Statement (.vfexp2f x0) := of_vector (n := 0x2B) (f := x0) rfl (by decide)
theorem vfrint (x0 : VFields) : Statement (.vfrint x0) := of_vector (n := 0x2C) (f := x0) rfl (by decide)
theorem vfscale (x0 : VFields) : Statement (.vfscale x0) := of_vector (n := 0x2D) (f := x0) rfl (by decide)
theorem vfgetx (x0 : VFields) : Statement (.vfgetx x0) := of_vector (n := 0x2E) (f := x0) rfl (by decide)
theorem vfclass (x0 : VFields) : Statement (.vfclass x0) := of_vector (n := 0x2F) (f := x0) rfl (by decide)
theorem vfcmp (x0 : VFields) : Statement (.vfcmp x0) := of_vector (n := 0x30) (f := x0) rfl (by decide)
theorem vcvt (x0 : VFields) : Statement (.vcvt x0) := of_vector (n := 0x31) (f := x0) rfl (by decide)
theorem vqmx (x0 : VFields) : Statement (.vqmx x0) := of_vector (n := 0x32) (f := x0) rfl (by decide)
theorem vcmp (x0 : VFields) : Statement (.vcmp x0) := of_vector (n := 0x38) (f := x0) rfl (by decide)
theorem mand (x0 : VFields) : Statement (.mand x0) := of_vector (n := 0x39) (f := x0) rfl (by decide)
theorem mor (x0 : VFields) : Statement (.mor x0) := of_vector (n := 0x3A) (f := x0) rfl (by decide)
theorem mxor (x0 : VFields) : Statement (.mxor x0) := of_vector (n := 0x3B) (f := x0) rfl (by decide)
theorem mandn (x0 : VFields) : Statement (.mandn x0) := of_vector (n := 0x3C) (f := x0) rfl (by decide)
theorem mpop (x0 : VFields) : Statement (.mpop x0) := of_vector (n := 0x3D) (f := x0) rfl (by decide)
theorem mfirst (x0 : VFields) : Statement (.mfirst x0) := of_vector (n := 0x3E) (f := x0) rfl (by decide)
theorem msbf (x0 : VFields) : Statement (.msbf x0) := of_vector (n := 0x3F) (f := x0) rfl (by decide)
theorem vconf (x0 : VFields) : Statement (.vconf x0) := of_vector (n := 0x40) (f := x0) rfl (by decide)
theorem vmov (x0 : VFields) : Statement (.vmov x0) := of_vector (n := 0x44) (f := x0) rfl (by decide)
theorem vmerge (x0 : VFields) : Statement (.vmerge x0) := of_vector (n := 0x45) (f := x0) rfl (by decide)
theorem vshuf (x0 : VFields) : Statement (.vshuf x0) := of_vector (n := 0x46) (f := x0) rfl (by decide)
theorem vswz (x0 : VFields) : Statement (.vswz x0) := of_vector (n := 0x47) (f := x0) rfl (by decide)
theorem vslideup (x0 : VFields) : Statement (.vslideup x0) := of_vector (n := 0x48) (f := x0) rfl (by decide)
theorem vslidedn (x0 : VFields) : Statement (.vslidedn x0) := of_vector (n := 0x49) (f := x0) rfl (by decide)
theorem vbcast (x0 : VFields) : Statement (.vbcast x0) := of_vector (n := 0x4A) (f := x0) rfl (by decide)
theorem vcomp (x0 : VFields) : Statement (.vcomp x0) := of_vector (n := 0x4B) (f := x0) rfl (by decide)
theorem vexpd (x0 : VFields) : Statement (.vexpd x0) := of_vector (n := 0x4C) (f := x0) rfl (by decide)
theorem vidx (x0 : VFields) : Statement (.vidx x0) := of_vector (n := 0x4D) (f := x0) rfl (by decide)
theorem vext (x0 : VFields) : Statement (.vext x0) := of_vector (n := 0x4E) (f := x0) rfl (by decide)
theorem vins (x0 : VFields) : Statement (.vins x0) := of_vector (n := 0x4F) (f := x0) rfl (by decide)
theorem vred (x0 : VFields) : Statement (.vred x0) := of_vector (n := 0x50) (f := x0) rfl (by decide)
theorem vfred (x0 : VFields) : Statement (.vfred x0) := of_vector (n := 0x51) (f := x0) rfl (by decide)
theorem vfredo (x0 : VFields) : Statement (.vfredo x0) := of_vector (n := 0x52) (f := x0) rfl (by decide)
theorem vld (x0 : VFields) : Statement (.vld x0) := of_vector (n := 0x58) (f := x0) rfl (by decide)
theorem vst (x0 : VFields) : Statement (.vst x0) := of_vector (n := 0x59) (f := x0) rfl (by decide)
theorem vgath (x0 : VFields) : Statement (.vgath x0) := of_vector (n := 0x5A) (f := x0) rfl (by decide)
theorem vscat (x0 : VFields) : Statement (.vscat x0) := of_vector (n := 0x5B) (f := x0) rfl (by decide)
theorem vglnk (x0 : VFields) : Statement (.vglnk x0) := of_vector (n := 0x5C) (f := x0) rfl (by decide)
theorem vscnd (x0 : VFields) : Statement (.vscnd x0) := of_vector (n := 0x5D) (f := x0) rfl (by decide)
theorem vamo (x0 : VFields) : Statement (.vamo x0) := of_vector (n := 0x5E) (f := x0) rfl (by decide)
theorem vwaitv (x0 : VFields) : Statement (.vwaitv x0) := of_vector (n := 0x5F) (f := x0) rfl (by decide)
theorem vpref (x0 : VFields) : Statement (.vpref x0) := of_vector (n := 0x60) (f := x0) rfl (by decide)
theorem mzero (x0 : VFields) : Statement (.mzero x0) := of_vector (n := 0x68) (f := x0) rfl (by decide)
theorem mopa (x0 : VFields) : Statement (.mopa x0) := of_vector (n := 0x69) (f := x0) rfl (by decide)
theorem mopai (x0 : VFields) : Statement (.mopai x0) := of_vector (n := 0x6A) (f := x0) rfl (by decide)
theorem mopax (x0 : VFields) : Statement (.mopax x0) := of_vector (n := 0x6B) (f := x0) rfl (by decide)
theorem mdrain (x0 : VFields) : Statement (.mdrain x0) := of_vector (n := 0x6C) (f := x0) rfl (by decide)
theorem mfill (x0 : VFields) : Statement (.mfill x0) := of_vector (n := 0x6D) (f := x0) rfl (by decide)
theorem vbar (x0 : VFields) : Statement (.vbar x0) := of_vector (n := 0x7C) (f := x0) rfl (by decide)
theorem vnop (x0 : VFields) : Statement (.vnop x0) := of_vector (n := 0x7D) (f := x0) rfl (by decide)
theorem vstop (x0 : VFields) : Statement (.vstop x0) := of_vector (n := 0x7E) (f := x0) rfl (by decide)
theorem blockFinish x0 : Statement (.blockFinish x0) := of_event rfl
theorem vectorTrapTake x0 : Statement (.vectorTrapTake x0) := of_event rfl
theorem asyncEventTake x0 : Statement (.asyncEventTake x0) := of_event rfl
theorem breakpoint x0 : Statement (.breakpoint x0) := of_event rfl
theorem residueMismatch x0 x1 : Statement (.residueMismatch x0 x1) := of_event rfl
theorem messageArrive x0 : Statement (.messageArrive x0) := of_event rfl
theorem handlerStart x0 : Statement (.handlerStart x0) := of_event rfl
theorem handlerOverrun x0 : Statement (.handlerOverrun x0) := of_event rfl
theorem replyArrive x0 : Statement (.replyArrive x0) := of_event rfl
theorem ping x0 : Statement (.ping x0) := of_event rfl
theorem rd x0 : Statement (.rd x0) := of_event rfl
theorem wr x0 : Statement (.wr x0) := of_event rfl
theorem aadd x0 : Statement (.aadd x0) := of_event rfl
theorem swap x0 : Statement (.swap x0) := of_event rfl
theorem casBuiltin x0 : Statement (.casBuiltin x0) := of_event rfl
theorem copy x0 : Statement (.copy x0) := of_event rfl
theorem swbump x0 : Statement (.swbump x0) := of_event rfl
theorem evset x0 : Statement (.evset x0) := of_event rfl
theorem copyEntry x0 x1 : Statement (.copyEntry x0 x1) := of_event rfl
theorem fabricEntry x0 x1 : Statement (.fabricEntry x0 x1) := of_event rfl
theorem lockGrant : Statement .lockGrant := of_event rfl
theorem lockTimeout : Statement .lockTimeout := of_event rfl
theorem vwaitvWake x0 : Statement (.vwaitvWake x0) := of_event rfl
theorem vwaitvTimeout x0 : Statement (.vwaitvTimeout x0) := of_event rfl
theorem stewardServiceDone x0 : Statement (.stewardServiceDone x0) := of_event rfl
theorem stewardRetry x0 : Statement (.stewardRetry x0) := of_event rfl
theorem arbiterRound x0 x1 : Statement (.arbiterRound x0 x1) := of_event rfl
theorem revocationDeadline x0 x1 : Statement (.revocationDeadline x0 x1) := of_event rfl
theorem drainTimeout x0 : Statement (.drainTimeout x0) := of_event rfl
theorem spillDone x0 : Statement (.spillDone x0) := of_event rfl
theorem cancelLand x0 : Statement (.cancelLand x0) := of_event rfl
theorem cancelTimeout x0 : Statement (.cancelTimeout x0) := of_event rfl
theorem hartRetire x0 : Statement (.hartRetire x0) := of_event rfl
theorem preempt x0 x1 : Statement (.preempt x0 x1) := of_event rfl
theorem preemptComplete x0 : Statement (.preemptComplete x0) := of_event rfl
theorem preemptRestart x0 : Statement (.preemptRestart x0) := of_event rfl
theorem hartMove x0 x1 : Statement (.hartMove x0 x1) := of_event rfl
theorem moveTimeout x0 : Statement (.moveTimeout x0) := of_event rfl
theorem gattach x0 : Statement (.gattach x0) := of_event rfl
theorem gdetach x0 : Statement (.gdetach x0) := of_event rfl
theorem tokenStep x0 : Statement (.tokenStep x0) := of_event rfl
theorem nodeDispatch x0 : Statement (.nodeDispatch x0) := of_event rfl
theorem reservation x0 : Statement (.reservation x0) := of_event rfl
theorem foldedHartStart x0 : Statement (.foldedHartStart x0) := of_event rfl
theorem prepare x0 x1 : Statement (.prepare x0 x1) := of_event rfl
theorem ack x0 x1 : Statement (.ack x0 x1) := of_event rfl
theorem nack x0 x1 : Statement (.nack x0 x1) := of_event rfl
theorem commit x0 x1 : Statement (.commit x0 x1) := of_event rfl
theorem abort x0 x1 : Statement (.abort x0 x1) := of_event rfl
theorem launchTimeout x0 : Statement (.launchTimeout x0) := of_event rfl
theorem walkVisit x0 : Statement (.walkVisit x0) := of_event rfl
theorem traceStart x0 x1 : Statement (.traceStart x0 x1) := of_event rfl
theorem traceBatchWrite x0 x1 : Statement (.traceBatchWrite x0 x1) := of_event rfl
theorem stwtailWrite x0 x1 : Statement (.stwtailWrite x0 x1) := of_event rfl
theorem stwringWrite x0 x1 : Statement (.stwringWrite x0 x1) := of_event rfl
theorem podretire x0 x1 : Statement (.podretire x0 x1) := of_event rfl
theorem eolWrite x0 x1 x2 : Statement (.eolWrite x0 x1 x2) := of_event rfl
theorem hmarginWrite x0 x1 : Statement (.hmarginWrite x0 x1) := of_event rfl
theorem thermalSample x0 x1 : Statement (.thermalSample x0 x1) := of_event rfl
theorem clamp x0 x1 : Statement (.clamp x0 x1) := of_event rfl
theorem powerMeasure x0 x1 : Statement (.powerMeasure x0 x1) := of_event rfl
theorem flitReceive x0 x1 x2 : Statement (.flitReceive x0 x1 x2) := of_event rfl
theorem retrain x0 : Statement (.retrain x0) := of_event rfl
theorem retrainDone x0 x1 : Statement (.retrainDone x0 x1) := of_event rfl
theorem switchoverEnd x0 : Statement (.switchoverEnd x0) := of_event rfl
theorem packageUnreachable x0 : Statement (.packageUnreachable x0) := of_event rfl
theorem hostFetchadd x0 x1 : Statement (.hostFetchadd x0 x1) := of_event rfl
theorem hostMemoryRead x0 x1 : Statement (.hostMemoryRead x0 x1) := of_event rfl
theorem hostMemoryWrite x0 x1 : Statement (.hostMemoryWrite x0 x1) := of_event rfl
theorem hostConfigWrite x0 x1 x2 : Statement (.hostConfigWrite x0 x1 x2) := of_event rfl
theorem hostRefusedRequest x0 : Statement (.hostRefusedRequest x0) := of_event rfl
theorem rstreqWarm : Statement .rstreqWarm := of_event rfl
theorem rstreqCold : Statement .rstreqCold := of_event rfl
theorem coldStart : Statement .coldStart := of_event rfl
theorem startupStep x0 : Statement (.startupStep x0) := of_event rfl
theorem hostCompletion x0 : Statement (.hostCompletion x0) := of_event rfl
theorem hostRequestTimeout : Statement .hostRequestTimeout := of_event rfl
theorem keyload : Statement .keyload := of_event rfl
theorem release : Statement .release := of_event rfl
theorem audset : Statement .audset := of_event rfl
theorem audlog : Statement .audlog := of_event rfl
theorem checkpt : Statement .checkpt := of_event rfl
theorem attest : Statement .attest := of_event rfl
theorem ident : Statement .ident := of_event rfl
theorem mailboxDone : Statement .mailboxDone := of_event rfl
theorem auditInterval x0 : Statement (.auditInterval x0) := of_event rfl
theorem auditPendingWrite x0 : Statement (.auditPendingWrite x0) := of_event rfl
theorem msixUnmask x0 : Statement (.msixUnmask x0) := of_event rfl
theorem badcmd : Statement .badcmd := of_event rfl
theorem hotReset : Statement .hotReset := of_event rfl

end Sys2Proof.Laws.Fits
end

