-- ==== Sys2Proof/Laws/Vector.lean ====
section
/-! SUPPORT. Elements of vector and mask registers (R123), the loop of `each` (R293), and what the instructions that run under it
can answer. -/

namespace Sys2Proof.Machine

/-! ### Elements -/

theorem testBit_elBits (r w e k : Nat) : (elBits r w e).testBit k = (decide (k < w) && r.testBit (w * e + k)) := by
  unfold elBits
  rw [Nat.testBit_mod_two_pow, Nat.testBit_div_two_pow, Nat.add_comm]

/-- The element that is written. -/
theorem elBits_setEl_same (r w e x : Nat) : elBits (setEl r w e x) w e = x % 2 ^ w := by
  apply Nat.eq_of_testBit_eq
  intro k
  rw [testBit_elBits]
  unfold setEl
  rw [Nat.testBit_xor, Nat.testBit_mul_two_pow, Nat.testBit_mod_two_pow]
  by_cases hk : k < w
  · have h : w * e + k - w * e = k := by omega
    rw [h, Nat.testBit_xor, testBit_elBits, Nat.testBit_mod_two_pow]
    have hg : w * e ≤ w * e + k := by omega
    simp only [hk, hg, decide_true, Bool.true_and]
    cases r.testBit (w * e + k) <;> simp
  · simp [hk]

/-- Every other element. -/
theorem elBits_setEl_other (r w e x e' : Nat) (h : e' ≠ e) : elBits (setEl r w e x) w e' = elBits r w e' := by
  apply Nat.eq_of_testBit_eq
  intro k
  rw [testBit_elBits, testBit_elBits]
  by_cases hk : k < w
  · simp only [hk, decide_true, Bool.true_and]
    unfold setEl
    rw [Nat.testBit_xor, Nat.testBit_mul_two_pow]
    suffices hz : (decide (w * e ≤ w * e' + k) && (elBits r w e ^^^ x % 2 ^ w).testBit (w * e' + k - w * e)) = false by
      rw [hz, Bool.xor_false]
    rcases Nat.lt_or_gt_of_ne h with hl | hg
    · have : ¬ w * e ≤ w * e' + k := by
        have := Nat.mul_le_mul_left w (show e' + 1 ≤ e from hl)
        rw [Nat.mul_add, Nat.mul_one] at this
        omega
      simp [this]
    · have : w ≤ w * e' + k - w * e := by
        have := Nat.mul_le_mul_left w (show e + 1 ≤ e' from hg)
        rw [Nat.mul_add, Nat.mul_one] at this
        omega
      rw [Nat.testBit_xor, testBit_elBits, Nat.testBit_mod_two_pow]
      simp [Nat.not_lt.mpr this]
  · simp [hk]

theorem elBits_lt (r w e : Nat) : elBits r w e < 2 ^ w := Nat.mod_lt _ (Nat.two_pow_pos w)

/-! ### The loop of `each` -/

/-- What one round of the loop does to an element. -/
theorem eachRound_el (s : State) (g : Range) (f : VFields) (w : Nat) (acc : Nat) (x k e : Nat) :
    elBits (if s.act g f k then setEl acc w k x else putEl g f.zm false w acc k 0) w e
      = if e = k then s.putsEl g f e (x % 2 ^ w) (elBits acc w e) else elBits acc w e := by
  by_cases he : e = k
  · subst he
    rw [if_pos rfl]
    unfold State.putsEl putEl
    by_cases ha : s.act g f e = true
    · rw [if_pos ha, if_pos ha]; exact elBits_setEl_same _ _ _ _
    · rw [if_neg ha, if_neg ha, if_neg Bool.false_ne_true]
      by_cases hl : e < g.vl
      · rw [if_pos hl, if_pos hl]
        by_cases hz : f.zm = true
        · rw [if_pos hz, if_pos hz, elBits_setEl_same]; exact Nat.zero_mod _
        · rw [if_neg hz, if_neg hz]
      · rw [if_neg hl, if_neg hl]
        by_cases hp : e < g.vbl
        · rw [if_pos hp, if_pos hp, elBits_setEl_same]; exact Nat.zero_mod _
        · rw [if_neg hp, if_neg hp]
  · rw [if_neg he]
    unfold putEl
    by_cases ha : s.act g f k = true
    · rw [if_pos ha]; exact elBits_setEl_other _ _ _ _ _ he
    · rw [if_neg ha, if_neg Bool.false_ne_true]
      by_cases hl : k < g.vl
      · rw [if_pos hl]
        by_cases hz : f.zm = true
        · rw [if_pos hz]; exact elBits_setEl_other _ _ _ _ _ he
        · rw [if_neg hz]
      · rw [if_neg hl]
        by_cases hp : k < g.vbl
        · rw [if_pos hp]; exact elBits_setEl_other _ _ _ _ _ he
        · rw [if_neg hp]

/-- The elements that the loop leaves: those below its end follow `put`, the others stand. -/
theorem eachBits_el (s : State) (g : Range) (f : VFields) (w r : Nat) (op : Nat → Nat × FlagSet) (e : Nat) :
    elBits (eachBits s g f w r op).1 w e = s.putsEl g f e ((op e).1 % 2 ^ w) (elBits r w e) := by
  have go : ∀ n, elBits ((List.range n).foldl (init := (r, ([] : List (Nat × FlagSet)))) fun acc k =>
        if s.act g f k then (setEl acc.1 w k (op k).1, if (op k).2 = 0 then acc.2 else (k, (op k).2) :: acc.2)
        else (putEl g f.zm false w acc.1 k 0, acc.2)).1 w e
      = if e < n then s.putsEl g f e ((op e).1 % 2 ^ w) (elBits r w e) else elBits r w e := by
    intro n
    induction n with
    | zero => simp
    | succ n ih =>
      rw [List.range_succ, List.foldl_append, List.foldl_cons, List.foldl_nil]
      generalize (List.range n).foldl _ _ = acc at ih ⊢
      have hr := eachRound_el s g f w acc.1 (op n).1 n e
      have hs : (if s.act g f n then (setEl acc.1 w n (op n).1, if (op n).2 = 0 then acc.2 else (n, (op n).2) :: acc.2)
          else (putEl g f.zm false w acc.1 n 0, acc.2)).1
          = if s.act g f n then setEl acc.1 w n (op n).1 else putEl g f.zm false w acc.1 n 0 := by
        by_cases ha : s.act g f n = true
        · rw [if_pos ha, if_pos ha]
        · rw [if_neg ha, if_neg ha]
      rw [hs, hr]
      by_cases he : e = n
      · subst he
        rw [if_neg (Nat.lt_irrefl _)] at ih
        rw [if_pos rfl, if_pos (Nat.lt_succ_self _), ih]
      · rw [if_neg he, ih]
        by_cases hl : e < n
        · rw [if_pos hl, if_pos (Nat.lt_succ_of_lt hl)]
        · rw [if_neg hl, if_neg (by omega)]
  have h := go g.top
  unfold eachBits
  rw [h]
  by_cases ht : e < g.top
  · rw [if_pos ht]
  · rw [if_neg ht]
    have hl : ¬ e < g.vl ∧ ¬ e < g.vbl := by unfold Range.top at ht; omega
    unfold State.putsEl State.act
    simp [hl.1, hl.2]

/-! ### Vector registers -/

@[simp] theorem State.writeV_v (s : State) (r q : BitVec 5) (w n v : Nat) : (s.writeV r w n v).v q = if q = r then v else s.v q := by
  unfold State.writeV State.v State.onStrip State.onCur
  dsimp only
  by_cases h : q = r
  · subst h; simp
  · rw [if_neg h]
    exact Vector.getElem_set_ne _ _ fun c => h (BitVec.eq_of_toNat_eq c.symm)

theorem State.writeV_frame (s : State) (r : BitVec 5) (w n v : Nat) :
    ∃ x, s.writeV r w n v = { s with cur := { s.cur with vec := { s.cur.vec with
      regs := { s.cur.vec.regs with v := s.cur.vec.regs.v.set r.toNat v r.isLt }, strip := x } } }
      ∧ (x.map fun y => (y.flags, y.eidx)) = s.cur.vec.strip.map fun y => (y.flags, y.eidx) := by
  refine ⟨_, rfl, ?_⟩
  cases h : s.cur.vec.strip <;> simp [State.onCur, h, Strip.wrote]

/-- The next word changes the position in the block, the last convoy and trace records; the convoy waits for nothing. -/
theorem State.nextWord_frame (s : State) : ∃ q l d, s.nextWord = { s with
    cur := { s.cur with vec := { s.cur.vec with queue := q, last := l }, wait := { s.cur.wait with vstall := none } }, dies := d } := by
  unfold State.nextWord
  split
  · exact ⟨s.cur.vec.queue, s.cur.vec.last, s.dies, rfl⟩
  · dsimp only
    split
    · unfold State.traceHart
      split
      · exact ⟨_, _, s.dies, rfl⟩
      · exact ⟨_, _, _, rfl⟩
    · exact ⟨_, _, s.dies, rfl⟩

/-- Flags of elements are noted in the strip alone. -/
theorem State.raise_frame (s : State) (fl : List (Nat × FlagSet)) :
    s.raise fl = { s with cur := { s.cur with vec := { s.cur.vec with
      strip := s.cur.vec.strip.map fun t => fl.foldl (init := t) fun t x => t.raise x.1 x.2 } } } := rfl

/-- Without a flag the loop notes none. -/
theorem eachBits_noFlags (s : State) (g : Range) (f : VFields) (w r : Nat) (op : Nat → Nat × FlagSet) (h : ∀ e, (op e).2 = 0) :
    (eachBits s g f w r op).2 = [] := by
  unfold eachBits
  generalize g.top = n
  induction n with
  | zero => rfl
  | succ n ih =>
    rw [List.range_succ, List.foldl_append, List.foldl_cons, List.foldl_nil]
    generalize (List.range n).foldl _ _ = acc at ih ⊢
    by_cases ha : s.act g f n = true
    · rw [if_pos ha]
      show (if (op n).2 = 0 then acc.2 else (n, (op n).2) :: acc.2) = []
      rw [if_pos (h n)]; exact ih
    · rw [if_neg ha]; exact ih

/-- An instruction under `each` into vD that raises no flag. -/
theorem eachV_resultV (s : State) (f : VFields) (wide w : Nat) (op : Range → Nat → Nat × FlagSet) (h : ∀ g e, (op g e).2 = 0) :
    s.resultV (s.eachV f wide w op).nextWord f wide w (fun e => (op (s.cur.range wide) e).1)
      ∧ s.noFlags (s.eachV f wide w op).nextWord := by
  have he : s.eachV f wide w op
      = s.writeV f.d w (s.cur.range wide).top (eachBits s (s.cur.range wide) f w (s.v f.d) (op (s.cur.range wide))).1 := by
    unfold State.eachV
    dsimp only
    rw [eachBits_noFlags _ _ _ _ _ _ (h _)]
    generalize hu : s.writeV _ _ _ _ = u
    have : u.cur.vec.strip.map (fun t => ([] : List (Nat × FlagSet)).foldl (init := t) fun t x => t.raise x.1 x.2) = u.cur.vec.strip := by
      cases u.cur.vec.strip <;> rfl
    rw [State.raise_frame, this]
  have hv : ∀ r, (s.eachV f wide w op).nextWord.v r
      = if r = f.d then (eachBits s (s.cur.range wide) f w (s.v f.d) (op (s.cur.range wide))).1 else s.v r := by
    intro r
    obtain ⟨q, l, d, hn⟩ := State.nextWord_frame (s.eachV f wide w op)
    rw [← State.writeV_v s f.d r w (s.cur.range wide).top, ← he, hn]
    rfl
  obtain ⟨x, hx, hxs⟩ := State.writeV_frame s f.d w (s.cur.range wide).top
    (eachBits s (s.cur.range wide) f w (s.v f.d) (op (s.cur.range wide))).1
  obtain ⟨q, l, d, hn⟩ := State.nextWord_frame (s.eachV f wide w op)
  refine ⟨⟨?_, ?_, ?_, ?_, ?_⟩, ?_⟩
  · intro e
    rw [hv, if_pos rfl]
    exact eachBits_el _ _ _ _ _ _ _
  · intro r hr; rw [hv, if_neg hr]
  · rw [hn, he, hx]
  · rw [hn, he, hx]
  · unfold State.vecFrame; rw [hn, he, hx]
  · unfold State.noFlags; rw [hn, he, hx]; exact hxs

/-! ### Links (R359) -/

/-- Dropping leaves some of the links, in order. -/
theorem keptLinks_sublist (n : Nat) (l : List Link) : (keptLinks n l).Sublist l := by
  induction l generalizing n with
  | nil => exact .slnil
  | cons a as ih =>
    unfold keptLinks
    split
    · exact (ih _).cons _
    · exact (ih _).cons_cons _

/-- The links that stand are some of those made, that of the lowest element among them. -/
theorem standingLinks_spec (n : Nat) (l : List Link) : (standingLinks n l).Sublist l ∧ (standingLinks n l).head? = l.head? := by
  cases l with
  | nil => exact ⟨.slnil, rfl⟩
  | cons a as => exact ⟨(keptLinks_sublist n as).cons_cons _, rfl⟩

end Sys2Proof.Machine
end

