-- ==== Sys2Proof/Tests/Base.lean ====
section
/-! SUPPORT. Small states for the tests: a user's hart with a few mapped pages, and an open strip. -/

set_option Elab.async false

namespace Sys2Proof.Tests

open Sys2Proof.Machine

/-- Has a computation come through, and is `P` true of what it gave? -/
def okAnd {α : Type} (r : Res α) (P : α → State → Bool) : Bool :=
  match r with
  | .ok a s => P a s
  | _ => false

theorem okAnd_iff {α : Type} {r : Res α} {P : α → State → Bool} (h : okAnd r P = true) :
    ∃ a s, r = .ok a s ∧ P a s = true := by
  cases r <;> simp_all [okAnd]

/-- Has a computation trapped, and is `P` true of its cause and value? -/
def trapAnd {α : Type} (r : Res α) (P : Nat → Word → State → Bool) : Bool :=
  match r with
  | .trap c v s => P c v s
  | _ => false

theorem trapAnd_iff {α : Type} {r : Res α} {P : Nat → Word → State → Bool} (h : trapAnd r P = true) :
    ∃ c v s, r = .trap c v s ∧ P c v s = true := by
  cases r <;> simp_all [trapAnd]

/-- Does a computation wait? -/
def stalls {α : Type} (r : Res α) : Bool :=
  match r with
  | .stall _ _ => true
  | _ => false

theorem stalls_iff {α : Type} {r : Res α} (h : stalls r = true) : ∃ w s, r = .stall w s := by
  cases r <;> simp_all [stalls]

/-- Does a commit end well, in a state of which `P` is true? -/
def doneAnd (c : Commit) (P : State → Bool) : Bool :=
  match c with
  | .done s => P s
  | _ => false

theorem doneAnd_iff {c : Commit} {P : State → Bool} (h : doneAnd c P = true) : ∃ s, c = .done s ∧ P s = true := by
  cases c <;> simp_all [doneAnd]

theorem loadsAt_of {s : State} {va : Word} {n : Nat} (h : va.toNat % n = 0)
    (k : okAnd (resolve s s.cur.cx .read va) (fun p s1 => decide (s1.check p n false = none ∧ spaceOf p.loc ≠ .host
      ∧ s1.readHeld s.cur.cx va p = false)) = true) :
    ∃ p s1, s.loadsAt va n p s1 := by
  obtain ⟨p, s1, h1, h2⟩ := okAnd_iff k
  exact ⟨p, s1, h, h1, of_decide_eq_true h2⟩

theorem loadsHost_of {s : State} {va : Word} {n : Nat} (h : va.toNat % n = 0)
    (k : okAnd (resolve s s.cur.cx .read va) (fun p s1 => decide (s1.check p n false = none ∧ spaceOf p.loc = .host
      ∧ s1.readHeld s.cur.cx va p = false)) = true) :
    ∃ p s1, s.loadsHost va n p s1 := by
  obtain ⟨p, s1, h1, h2⟩ := okAnd_iff k
  exact ⟨p, s1, h, h1, of_decide_eq_true h2⟩

theorem storesAt_of {s : State} {va : Word} {n : Nat} (h : va.toNat % n = 0)
    (k : okAnd (resolve s s.cur.cx .write va) (fun p s1 =>
      decide (s1.check p n true = none ∧ spaceOf p.loc ≠ .host ∧ s1.writeLocked s.cur.cx va p = false
        ∧ (s1.setAD s.cur.base.ptroot va p true).syncHit p.loc n = []
        ∧ (s1.setAD s.cur.base.ptroot va p true).wild p n false = [])) = true) :
    ∃ p s1, s.storesAt va n p s1 := by
  obtain ⟨p, s1, h1, h2⟩ := okAnd_iff k
  exact ⟨p, s1, h, h1, of_decide_eq_true h2⟩

theorem updatesAt_of {s : State} {va : Word} {n : Nat} {cas : Bool} (h : va.toNat % n = 0)
    (k : okAnd (resolve s s.cur.cx .readWrite va) (fun p s1 => decide (s1.check p n true = none ∧ spaceOf p.loc ≠ .host
      ∧ s1.writeLocked s.cur.cx va p = false ∧ (s1.setAD s.cur.base.ptroot va p true).syncHit p.loc n = []
      ∧ (s1.setAD s.cur.base.ptroot va p true).wild p n cas = [])) = true) :
    ∃ p s1, s.updatesAt va n cas p s1 := by
  obtain ⟨p, s1, h1, h2⟩ := okAnd_iff k
  exact ⟨p, s1, h, h1, of_decide_eq_true h2⟩

/-- An access to a page that is not present waits for the steward (R183). -/
theorem stalls_steward {s : State} {cx : Ctx} {k : Kind} {va : Word} {a e : Nat} (h : inWindow va = false) (c : canonical va = true)
    (w : walk s cx.root va.toNat = .steward a e) (f : s.store.failed = []) (o : ∀ ok, staleLeaves s.store cx va.toNat none ok = []) :
    stalls (resolve s cx k va) = true := by
  unfold resolve Machine.translate State.callSteward
  simp only [h, c, w, f, o, List.find?_nil, Bool.not_true, Bool.false_eq_true, if_false]
  split
  · rfl
  · split <;> rfl

/-- Is `P` true of the next state? -/
def nextAnd (o : Out) (P : State → Bool) : Bool :=
  match o with
  | .next t => P t
  | _ => false

theorem nextAnd_iff {o : Out} {P : State → Bool} (h : nextAnd o P = true) : ∃ t, o = .next t ∧ P t = true := by
  cases o <;> simp_all [nextAnd]

/-- General registers, g0 left at 0. -/
def regs (f : Nat → Word) : Vector Word 32 := Vector.ofFn fun i => if i.val = 0 then 0 else f i.val

/-- A hart of key slot 0 with a page at 0x1_0000 that all may read, write and execute (`placeScalar`), further leaves, and
registers. -/
def hart (pages : List (Nat × Nat)) (f : Nat → Word) : State :=
  let s := (placeScalar State.reset 0).onCur fun x => { x with base := { x.base with g := regs f } }
  s.onStore fun st => { st with bytes := pages.foldl (fun m p => Mem.writeN m (0x431000 + 8 * p.1) 8 p.2) st.bytes }

/-- A leaf: V or MIG, and R, W, X, U (R172), over an origin. -/
def leaf (low origin : Nat) : Nat := low + origin

/-- The vector side of a hart: a block with two words, over the given registers. -/
def block (ws : List Nat) (g : Vector Word 32) : Block :=
  { addr := 0x10000, regs := g, head := 0, words := ws, next := 0, steps := 0, y := Vector.replicate 8 0, ended := false, since := 0 }

/-- A hart in an open strip: VL and VBL, the words of its convoy, v0 to v3 and m1. -/
def strip (vl vbl : Nat) (ws : List Nat) (v0 v1 v2 m1 : Nat) (f : Nat → Word := fun _ => 0) (pages : List (Nat × Nat) := []) : State :=
  let s := hart pages f
  s.onCur fun x =>
    let x := { x with
      uid := 1
      lease := { x.lease with state := .held, pods := [0], next := 1, force := ⟨1, 1, 1, 1, true⟩, req := ⟨1, 1, 1, 1, true⟩ }
      vec := { x.vec with
        vl := vl, vbl := vbl, fmt := .i32, queue := [block ws x.base.g]
        regs := { x.vec.regs with
          v := Vector.ofFn fun i => if i.val = 0 then v0 else if i.val = 1 then v1 else if i.val = 2 then v2 else 0
          m := Vector.ofFn fun i => if i.val = 1 then m1 else 0 } } }
    { x with vec := { x.vec with strip := some (x.freshStrip []) } }

/-- Fields of a vector instruction: D, A, B, E, MK, FMT, FN, QS, IMM. -/
def vf (d a b e msk fmt fn qs imm : Nat) : VFields :=
  ⟨true, BitVec.ofNat 5 d, BitVec.ofNat 5 a, BitVec.ofNat 5 b, BitVec.ofNat 5 e, BitVec.ofNat 3 msk, false, BitVec.ofNat 4 fmt,
    BitVec.ofNat 8 fn, BitVec.ofNat 4 qs, BitVec.ofNat 16 imm⟩

end Sys2Proof.Tests
end

