-- ==== Sys2Proof/Tests/Slice0.lean ====
section
/-! SUPPORT. Tests on fixed values: ill-formed terms that the checks refuse, a word for every scalar and vector instruction put together from the field tables
(the words of R292, R318, R325, R351, R353 and R374 among them), and the worked examples of the manual. -/

set_option Elab.async false

namespace Sys2Proof.Tests

open Sys2Proof.Machine

/-! ### Well-formedness: one ill-formed term for each check -/

/-- Scalar words whose field values R290 test 3 refuses: a width of 64 bits for SEXT and ZEXT, a scope without an order, an operation, a rounding field,
two integer formats, an empty set, registers, reaches and modes that do not exist. -/
theorem test_illformed_scalar : ∀ i ∈ ([.sext 1 2 3, .zext 1 2 3, .ld 1 2 0 0 1 0, .ldu 1 2 0 0 1 0, .st 1 2 0 0 1 0, .amo 1 2 3 0 0 0 9, .amo 1 2 3 0 3 0 0,
   .cas 1 2 3 0 1 0, .fadd 1 2 3 4 0, .fsub 1 2 3 5 0, .fmul 1 2 3 6 0, .fdiv 1 2 3 4 0, .fsqrt 1 2 5 0, .fma 1 2 3 4 6 0, .fcvt 1 2 0 2 3 0, .fcvt 1 2 1 10 11 0,
   .fcvt 1 2 0 8 10 0, .fcvt 1 2 0 10 13 0, .fcvt 1 2 0 2 10 4, .fence 1 0, .wait 1 0, .msg 1 26 0 0, .cflush 1 1, .cflush 1 6, .tlbi 1 0 1, .tlbi 1 0 2, .tlbi 0 1 2,
   .tlbi 0 0 3, .vsetl 1 2 0 0 11, .vsetl 1 2 0 0 13, .qfence 2 0 0 0] : List Instr), i.wf = false := by decide +kernel

/-- Vector words that R291 refuses: E not 0, a kind of B, a reserved format, a rounding field, the mask m0 as destination, a result slot, function bits. -/
theorem test_illformed_integer : ∀ i ∈ ([.vadd (vf 1 2 3 4 0 2 0 0 0), .vsub (vf 1 2 3 0 0 2 0x18 0 0), .vmul (vf 1 2 3 0 0 10 0 0 0), .vmulh (vf 1 2 3 0 0 2 1 0 0),
   .vmulhu (vf 1 2 3 0 0 2 0 1 0), .vmin (vf 1 2 3 0 0 2 0x20 0 0), .vmax (vf 1 2 3 0 0 2 0 0 1), .vminu (vf 1 2 3 0 0 2 0x10 0 1), .vmaxu (vf 1 2 0 1 0 2 0 0 0),
   .vand (vf 1 2 3 0 0 13 0 0 0), .vor (vf 1 2 3 0 0 2 2 0 0), .vxor (vf 1 2 3 0 0 12 0 0 0), .vandn (vf 1 2 3 1 0 2 0 0 0), .vshl (vf 1 2 3 1 0 2 0 0 0),
   .vshr (vf 1 2 3 1 0 2 0 0 0), .vsar (vf 1 2 3 1 0 2 0 0 0), .vadds (vf 1 2 3 1 0 2 0 0 0), .vsubs (vf 1 2 3 1 0 2 0 0 0), .vaddsu (vf 1 2 3 1 0 2 0 0 0),
   .vsubsu (vf 1 2 3 1 0 2 0 0 0), .vmad (vf 1 2 3 4 0 2 1 0 0), .vabs (vf 1 2 3 0 0 2 0 0 0), .vcmp (vf 0 2 3 0 0 2 0 0 0), .mand (vf 8 1 2 0 0 0 0 0 0),
   .mor (vf 1 8 2 0 0 0 0 0 0), .mxor (vf 1 2 8 0 0 0 0 0 0), .mandn (vf 1 2 3 0 0 2 0 0 0), .mpop (vf 1 2 0 0 0 0 0 0 0), .mfirst (vf 0 2 0 0 0 0 0 8 0),
   .msbf (vf 0 2 0 0 0 0 0 0 0), .vconf (vf 0 2 0 0 0 2 0 0 0), .vconf (vf 1 2 0 0 0 2 3 0 0), .vred (vf 1 2 0 0 0 2 0 0 0), .vred (vf 0 2 3 0 0 2 0 0 0),
   .vred (vf 0 2 0 0 0 2 0xC 0 0)] : List Instr), i.wf = false := by decide +kernel

theorem test_illformed_float : ∀ i ∈ ([.vfadd (vf 1 2 3 0 0 2 0 0 0), .vfsub (vf 1 2 3 0 0 11 0 0 0), .vfmul (vf 1 2 3 0 0 10 4 0 0), .vfdiv (vf 1 2 3 0 0 10 0x10 0 0),
   .vfma (vf 1 2 3 4 0 10 5 0 0), .vfmin (vf 1 2 3 0 0 10 1 0 0), .vfmax (vf 1 2 3 1 0 10 0 0 0), .vfsqrt (vf 1 2 3 0 0 10 0 0 0), .vfrcp (vf 1 2 0 0 0 10 8 0 0),
   .vfrint (vf 1 2 0 0 0 10 4 0 0), .vfrsq (vf 1 2 0 0 0 10 1 0 0), .vfgetx (vf 1 2 0 0 0 12 0 0 0), .vfexp2f (vf 1 2 0 0 0 8 0 0 0), .vfsgn (vf 1 2 3 0 0 10 3 0 0),
   .vfscale (vf 1 2 3 0 0 10 0x18 0 0), .vfclass (vf 0 2 0 0 0 10 0 0 1), .vfclass (vf 1 2 0 0 0 10 0 0 0x400), .vfcmp (vf 1 2 3 0 0 10 4 0 0),
   .vcvt (vf 1 2 0 0 0 11 0xA0 0 0), .vcvt (vf 1 2 0 0 0 10 0x88 0 0), .vqmx (vf 1 2 0 1 0 6 0xA0 0 0), .vqmx (vf 1 2 0 3 0 10 0xA0 0 0), .vfred (vf 0 2 0 0 0 10 0x18 0 0),
   .vfred (vf 0 2 3 0 0 10 0 0 0), .vfredo (vf 0 2 0 0 0 10 8 0 0)] : List Instr), i.wf = false := by decide +kernel

theorem test_illformed_move : ∀ i ∈ ([.vmov (vf 1 2 3 0 0 2 0 0 0), .vmerge { vf 1 2 3 0 1 2 0 0 0 with zm := true }, .vshuf (vf 1 2 3 0 0 2 0x18 0 0),
   .vswz (vf 1 2 0 0 0 10 0 0 4), .vslideup (vf 1 2 3 0 0 2 0 0 0), .vslidedn (vf 1 2 0 0 0 2 0x18 0 0), .vbcast (vf 1 2 3 0 0 2 8 0 0), .vbcast (vf 1 0 0 0 0 10 0x10 0 1),
   .vcomp { vf 1 2 0 0 1 2 0 0 0 with zm := true }, .vcomp (vf 1 2 0 0 1 2 0 1 0), .vexpd (vf 1 2 0 0 1 2 1 0 0), .vidx (vf 1 2 0 0 0 2 0 0 0), .vext (vf 1 2 3 0 0 2 8 0 0),
   .vext (vf 0 2 3 0 1 2 8 0 0), .vins (vf 1 2 3 0 0 2 0 0 0)] : List Instr), i.wf = false := by decide +kernel

theorem test_illformed_memory : ∀ i ∈ ([.vld (vf 1 2 0 0 0 10 0 0 0), .vld (vf 1 0 0 0 0 10 0 0 0x8000), .vld (vf 1 0 0 0 0 10 0 0 0x0800), .vst (vf 1 2 0 0 0 10 0 0 0),
   .vst (vf 0 2 0 0 0 10 0 0 0x4000), .vgath (vf 1 2 3 0 0 10 0 0 0), .vscat (vf 1 2 3 0 0 10 0 0 0), .vglnk (vf 1 0 3 0 0 4 0 0 0), .vscnd (vf 0 2 3 0 0 10 0 0 0),
   .vamo (vf 1 2 3 0 0 2 0x50 0 0), .vamo (vf 1 2 3 0 0 2 0 0 0), .vamo (vf 1 2 3 0 0 10 0x80 0 0), .vwaitv (vf 1 2 3 0 0 2 0 0 0), .vwaitv (vf 1 2 0 0 0 2 0x30 0 0),
   .vwaitv (vf 1 2 0 0 0 10 0 0 0), .vpref (vf 0 0 0 0 0 10 0 0 0x4000)] : List Instr), i.wf = false := by decide +kernel

theorem test_illformed_matrix : ∀ i ∈ ([.mzero (vf 4 0 0 0 0 10 0 0 0), .mzero (vf 1 0 0 0 0 3 0 0 0), .mopa (vf 1 2 3 0 0 6 0x80 0 0), .mopa (vf 1 2 3 0 1 6 0x60 0 0),
   .mopai (vf 1 2 3 0 0 0 1 0 0), .mopai (vf 1 2 3 0 0 2 0 0 0), .mopax (vf 1 2 3 4 0 8 0x80 0 0), .mdrain (vf 1 4 0 0 0 10 0 0 0), .mdrain (vf 1 1 0 0 0 0 0 0 0),
   .mdrain (vf 1 1 0 0 0 10 0 0 16), .mfill (vf 1 2 0 0 0 8 0 0 0), .vbar (vf 1 0 0 0 0 0 0 0 0), .vnop (vf 0 0 0 0 0 0 0 0 1), .vstop (vf 0 0 0 0 0 0 0 1 0)] : List Instr),
  i.wf = false := by decide +kernel

/-- Events at places that do not exist. -/
theorem test_illformed_events : ∀ i ∈ ([.blockFinish ⟨4, 0, 0, 0⟩, .vectorTrapTake ⟨0, 17, 0, 0⟩, .asyncEventTake ⟨0, 0, 16, 0⟩, .breakpoint ⟨0, 0, 0, 8⟩, .residueMismatch ⟨0, 16, 1, 0⟩ [],
   .replyArrive ⟨4, 0, 0, 0⟩, .copyEntry ⟨4, 0, 0, 0⟩ true, .fabricEntry ⟨4, 0, 0, 0⟩ .unreachable, .vwaitvWake ⟨4, 0, 0, 0⟩, .vwaitvTimeout ⟨4, 0, 0, 0⟩,
   .drainTimeout ⟨4, 0, 0, 0⟩, .spillDone ⟨4, 0, 0, 0⟩, .cancelLand ⟨4, 0, 0, 0⟩, .cancelTimeout ⟨4, 0, 0, 0⟩, .hartRetire ⟨4, 0, 0, 0⟩, .preemptComplete ⟨4, 0, 0, 0⟩,
   .moveTimeout ⟨4, 0, 0, 0⟩, .hartMove ⟨0, 0, 0, 0⟩ 4, .messageArrive ⟨4, 0, 0⟩, .handlerStart ⟨4, 0, 0⟩, .handlerOverrun ⟨0, 17, 0⟩, .ping ⟨0, 0, 16⟩, .rd ⟨4, 0, 0⟩,
   .wr ⟨4, 0, 0⟩, .aadd ⟨4, 0, 0⟩, .swap ⟨4, 0, 0⟩, .casBuiltin ⟨4, 0, 0⟩, .copy ⟨4, 0, 0⟩, .swbump ⟨4, 0, 0⟩, .evset ⟨4, 0, 0⟩, .arbiterRound 0 16, .revocationDeadline 4 0,
   .clamp 0 16, .preempt 0 2048, .podretire 0 256, .eolWrite 0 256 0, .traceStart 0 4, .traceBatchWrite 4 0, .stewardServiceDone 4, .stewardRetry 4, .preemptRestart 4,
   .tokenStep 4, .nodeDispatch 4, .reservation 4, .foldedHartStart 4, .stwtailWrite 4 0, .stwringWrite 4 0, .hmarginWrite 4 0, .thermalSample 4 [], .powerMeasure 4 0,
   .auditInterval 4, .auditPendingWrite 4, .prepare 0 4, .ack 0 4, .nack 0 4, .commit 0 4, .abort 0 4] : List Instr), i.wf = false := by decide +kernel

/-! ### A word of every instruction -/

/-- Words ADD to SEXT. -/
theorem test_scalar_words1 : ∀ p ∈ (
  [(0x04611000, .add 3 1 2), (0x04611001, .sub 3 1 2), (0x04611002, .and 3 1 2), (0x04611003, .or 3 1 2), (0x04611004, .xor 3 1 2),
   (0x04611005, .andn 3 1 2), (0x04611006, .shl 3 1 2), (0x04611007, .shr 3 1 2), (0x04611008, .sar 3 1 2), (0x04611009, .slt 3 1 2),
   (0x0461100A, .sltu 3 1 2), (0x0461100B, .min 3 1 2), (0x0461100C, .max 3 1 2), (0x0461100D, .minu 3 1 2), (0x0461100E, .maxu 3 1 2),
   (0x04611010, .mul 3 1 2), (0x04611011, .mulh 3 1 2), (0x04611012, .mulhu 3 1 2), (0x04611014, .div 3 1 2), (0x04611015, .divu 3 1 2),
   (0x04611016, .rem 3 1 2), (0x04611017, .remu 3 1 2), (0x04610018, .clz 3 1), (0x04610019, .ctz 3 1), (0x0461001A, .popc 3 1),
   (0x0461005C, .sext 3 1 1)] : List (Nat × Instr)),
    decodeScalar p.1 = .ok p.2 ∧ p.2.wf = true ∧ encode p.2 = .scalar p.1 := by decide +kernel

/-- Words ZEXT to CAS. -/
theorem test_scalar_words2 : ∀ p ∈ (
  [(0x0461005D, .zext 3 1 1), (0x08611234, .addi 3 1 0x1234), (0x0C611234, .andi 3 1 0x1234), (0x10611234, .ori 3 1 0x1234),
   (0x14611234, .xori 3 1 0x1234), (0x18610021, .shli 3 1 33), (0x1C61003F, .shri 3 1 63), (0x20610001, .sari 3 1 1), (0x24611234, .slti 3 1 0x1234),
   (0x28611234, .sltui 3 1 0x1234), (0x2C621234, .ldi 3 2 0x1234), (0x2C661234, .ldiK 3 2 0x1234), (0x30601234, .addpc 3 0x1234),
   (0x3422FFFD, .beq 1 2 0xFFFD), (0x38221FFE, .bne 1 2 0x1FFE), (0x3C221FFE, .blt 1 2 0x1FFE), (0x40221FFE, .bge 1 2 0x1FFE),
   (0x44221FFE, .bltu 1 2 0x1FFE), (0x48221FFE, .bgeu 1 2 0x1FFE), (0x4C7FFFFD, .j 3 0x1FFFFD), (0x50611234, .jr 3 1 0x1234),
   (0x5461EFFF, .ld 3 1 3 1 3 0x3FF), (0x58610201, .ldu 3 1 0 0 0 0x201), (0x5C61B7FE, .st 3 1 2 1 5 0x3FE), (0x60611738, .amo 3 1 2 3 4 1 8),
   (0x646112E0, .cas 3 1 2 1 3 0)] : List (Nat × Instr)),
    decodeScalar p.1 = .ok p.2 ∧ p.2.wf = true ∧ encode p.2 = .scalar p.1 := by decide +kernel

/-- Words FADD to CFLUSH. -/
theorem test_scalar_words3 : ∀ p ∈ (
  [(0x68611070, .fadd 3 1 2 7 0), (0x68611098, .fsub 3 1 2 1 1), (0x68611128, .fmul 3 1 2 2 1), (0x68611188, .fdiv 3 1 2 0 1),
   (0x68610238, .fsqrt 3 1 3 1), (0x68611288, .fmin 3 1 2 1), (0x68611308, .fmax 3 1 2 1), (0x6861138A, .fcmp 3 1 2 1 2), (0x68610408, .fclass 3 1 1),
   (0x6C611144, .fma 3 1 2 5 0 1), (0x70610D11, .fcvt 3 1 1 10 2 1), (0x74000590, .fence 5 9), (0x746002A1, .wait 3 42), (0x74600072, .barj 3 7),
   (0x74600063, .bara 3 6), (0x74010054, .barw 1 5), (0x74000045, .barl 4), (0x78011020, .msg 1 2 1 0), (0x78010001, .mret 1),
   (0x78011002, .token 1 2), (0x78000003, .texit), (0x78010004, .tfail 1), (0x7C010000, .trap 1), (0x7C000001, .tret), (0x7C000002, .brk),
   (0x7C010043, .cflush 1 4)] : List (Nat × Instr)),
    decodeScalar p.1 = .ok p.2 ∧ p.2.wf = true ∧ encode p.2 = .scalar p.1 := by decide +kernel

/-- Words TLBI to XSIG. -/
theorem test_scalar_words4 : ∀ p ∈ (
  [(0x7C011004, .tlbi 1 2 0), (0x80600070, .srd 3 0x70), (0x84010070, .swr 1 0x70), (0x88610001, .srs 3 1 1), (0x8C610001, .src 3 1 1),
   (0x90610000, .vlease 3 1), (0x906101A1, .vsetl 3 1 0 1 10), (0x90010002, .vfetch 1), (0x90600003, .vsync 3), (0x90000004, .vcommit),
   (0x90000005, .vrel), (0x90000016, .mbegin 1), (0x90000007, .mend), (0x940100D0, .qset 1 13), (0x940001D0, .qsetOff 13), (0x946100D1, .qpos 3 1 13),
   (0x946001D1, .qposRd 3 13), (0x946148D2, .qcopy 3 1 9 0 13), (0x94611193, .qput 3 1 2 1 9), (0x94000354, .qfence 3 1 0 1),
   (0x94611005, .swarm 3 1 2), (0x94611006, .swwait 3 1 2), (0x98611000, .xput 3 1 2), (0x98611001, .xget 3 1 2), (0x98011002, .xsig 1 2)] : List (Nat × Instr)),
    decodeScalar p.1 = .ok p.2 ∧ p.2.wf = true ∧ encode p.2 = .scalar p.1 := by decide +kernel

/-- Words VADD to VFMA. -/
theorem test_vector_words1 : ∀ p ∈ (
  [(0x81184A0020800000, .vadd ⟨true, 3, 1, 5, 0, 0, false, 2, 0x8, 0, 0x0⟩), (0x28A4A0720000000, .vsub ⟨false, 17, 9, 5, 0, 3, true, 2, 0x0, 0, 0x0⟩),
   (0x38A4A0720000000, .vmul ⟨false, 17, 9, 5, 0, 3, true, 2, 0x0, 0, 0x0⟩),
   (0x48A4A0720000000, .vmulh ⟨false, 17, 9, 5, 0, 3, true, 2, 0x0, 0, 0x0⟩),
   (0x58A4A0720000000, .vmulhu ⟨false, 17, 9, 5, 0, 3, true, 2, 0x0, 0, 0x0⟩),
   (0x620443A20000000, .vmad ⟨false, 4, 1, 2, 3, 5, false, 2, 0x0, 0, 0x0⟩), (0x78A4A0720000000, .vmin ⟨false, 17, 9, 5, 0, 3, true, 2, 0x0, 0, 0x0⟩),
   (0x88A4A0720000000, .vmax ⟨false, 17, 9, 5, 0, 3, true, 2, 0x0, 0, 0x0⟩),
   (0x98A4A0720000000, .vminu ⟨false, 17, 9, 5, 0, 3, true, 2, 0x0, 0, 0x0⟩),
   (0xA8A4A0720000000, .vmaxu ⟨false, 17, 9, 5, 0, 3, true, 2, 0x0, 0, 0x0⟩),
   (0xB8A4A0720000000, .vand ⟨false, 17, 9, 5, 0, 3, true, 2, 0x0, 0, 0x0⟩), (0xC8A4A0720000000, .vor ⟨false, 17, 9, 5, 0, 3, true, 2, 0x0, 0, 0x0⟩),
   (0xD8A4A0720000000, .vxor ⟨false, 17, 9, 5, 0, 3, true, 2, 0x0, 0, 0x0⟩),
   (0xE8A4A0720000000, .vandn ⟨false, 17, 9, 5, 0, 3, true, 2, 0x0, 0, 0x0⟩),
   (0xF8A4A0720000000, .vshl ⟨false, 17, 9, 5, 0, 3, true, 2, 0x0, 0, 0x0⟩),
   (0x108A4A0720000000, .vshr ⟨false, 17, 9, 5, 0, 3, true, 2, 0x0, 0, 0x0⟩),
   (0x118A4A0720000000, .vsar ⟨false, 17, 9, 5, 0, 3, true, 2, 0x0, 0, 0x0⟩),
   (0x128A4A0720000000, .vadds ⟨false, 17, 9, 5, 0, 3, true, 2, 0x0, 0, 0x0⟩),
   (0x1339C0031100FFFD, .vsubs ⟨false, 7, 7, 0, 0, 1, true, 1, 0x10, 0, 0xFFFD⟩),
   (0x148A4A0720000000, .vaddsu ⟨false, 17, 9, 5, 0, 3, true, 2, 0x0, 0, 0x0⟩),
   (0x158A4A0720000000, .vsubsu ⟨false, 17, 9, 5, 0, 3, true, 2, 0x0, 0, 0x0⟩),
   (0x168A400600000000, .vabs ⟨false, 17, 9, 0, 0, 3, false, 0, 0x0, 0, 0x0⟩),
   (0x208A4A06A0700000, .vfadd ⟨false, 17, 9, 5, 0, 3, false, 10, 0x7, 0, 0x0⟩),
   (0x218A4A06A0700000, .vfsub ⟨false, 17, 9, 5, 0, 3, false, 10, 0x7, 0, 0x0⟩),
   (0x228A4A06A0700000, .vfmul ⟨false, 17, 9, 5, 0, 3, false, 10, 0x7, 0, 0x0⟩),
   (0x238A4A06A0700000, .vfdiv ⟨false, 17, 9, 5, 0, 3, false, 10, 0x7, 0, 0x0⟩),
   (0x248A4002A0300000, .vfsqrt ⟨false, 17, 9, 0, 0, 1, false, 10, 0x3, 0, 0x0⟩),
   (0xA5204435A0700000, .vfma ⟨true, 4, 1, 2, 3, 2, true, 10, 0x7, 0, 0x0⟩)] : List (Nat × Instr)),
    decodeVector p.1 = .ok p.2 ∧ p.2.wf = true ∧ encode p.2 = .vector p.1 := by decide +kernel

/-- Words VFMIN to VSLIDEDN. -/
theorem test_vector_words2 : ∀ p ∈ (
  [(0x268A4A00A0000000, .vfmin ⟨false, 17, 9, 5, 0, 0, false, 10, 0x0, 0, 0x0⟩),
   (0x278A4A00A0000000, .vfmax ⟨false, 17, 9, 5, 0, 0, false, 10, 0x0, 0, 0x0⟩),
   (0x288A4A00A0200000, .vfsgn ⟨false, 17, 9, 5, 0, 0, false, 10, 0x2, 0, 0x0⟩),
   (0x298A4002A0300000, .vfrcp ⟨false, 17, 9, 0, 0, 1, false, 10, 0x3, 0, 0x0⟩),
   (0x2A8A4002A0000000, .vfrsq ⟨false, 17, 9, 0, 0, 1, false, 10, 0x0, 0, 0x0⟩),
   (0x2B8A4002A0000000, .vfexp2f ⟨false, 17, 9, 0, 0, 1, false, 10, 0x0, 0, 0x0⟩),
   (0x2C8A4002A0300000, .vfrint ⟨false, 17, 9, 0, 0, 1, false, 10, 0x3, 0, 0x0⟩),
   (0x2D8A4A00A0F00000, .vfscale ⟨false, 17, 9, 5, 0, 0, false, 10, 0xF, 0, 0x0⟩),
   (0x2E8A4002A0000000, .vfgetx ⟨false, 17, 9, 0, 0, 1, false, 10, 0x0, 0, 0x0⟩),
   (0x2F3A4000A00003FF, .vfclass ⟨false, 7, 9, 0, 0, 0, false, 10, 0x0, 0, 0x3FF⟩),
   (0x303A4A04A0300000, .vfcmp ⟨false, 7, 9, 5, 0, 2, false, 10, 0x3, 0, 0x0⟩),
   (0x318A4000A8700000, .vcvt ⟨false, 17, 9, 0, 0, 0, false, 10, 0x87, 0, 0x0⟩),
   (0x328A41206A700000, .vqmx ⟨false, 17, 9, 0, 18, 0, false, 6, 0xA7, 0, 0x0⟩),
   (0x383A4A0420300000, .vcmp ⟨false, 7, 9, 5, 0, 2, false, 2, 0x3, 0, 0x0⟩),
   (0x39398A0400000000, .mand ⟨false, 7, 6, 5, 0, 2, false, 0, 0x0, 0, 0x0⟩),
   (0x3A398A0400000000, .mor ⟨false, 7, 6, 5, 0, 2, false, 0, 0x0, 0, 0x0⟩),
   (0x3B398A0400000000, .mxor ⟨false, 7, 6, 5, 0, 2, false, 0, 0x0, 0, 0x0⟩),
   (0x3C398A0400000000, .mandn ⟨false, 7, 6, 5, 0, 2, false, 0, 0x0, 0, 0x0⟩),
   (0x3D01800400070000, .mpop ⟨false, 0, 6, 0, 0, 2, false, 0, 0x0, 7, 0x0⟩),
   (0x3E01800400070000, .mfirst ⟨false, 0, 6, 0, 0, 2, false, 0, 0x0, 7, 0x0⟩),
   (0x3F39800500000000, .msbf ⟨false, 7, 6, 0, 0, 2, true, 0, 0x0, 0, 0x0⟩),
   (0x4011800020100000, .vconf ⟨false, 2, 6, 0, 0, 0, false, 2, 0x1, 0, 0x0⟩),
   (0x448A4006A0000000, .vmov ⟨false, 17, 9, 0, 0, 3, false, 10, 0x0, 0, 0x0⟩),
   (0x458A4A06A0000000, .vmerge ⟨false, 17, 9, 5, 0, 3, false, 10, 0x0, 0, 0x0⟩),
   (0x468A4A06A0800000, .vshuf ⟨false, 17, 9, 5, 0, 3, false, 10, 0x8, 0, 0x0⟩),
   (0x474A0000A0000003, .vswz ⟨false, 9, 8, 0, 0, 0, false, 10, 0x0, 0, 0x3⟩),
   (0x488A4000A1000005, .vslideup ⟨false, 17, 9, 0, 0, 0, false, 10, 0x10, 0, 0x5⟩),
   (0x498A4000A1000005, .vslidedn ⟨false, 17, 9, 0, 0, 0, false, 10, 0x10, 0, 0x5⟩)] : List (Nat × Instr)),
    decodeVector p.1 = .ok p.2 ∧ p.2.wf = true ∧ encode p.2 = .vector p.1 := by decide +kernel

/-- Words VBCAST to VSTOP. -/
theorem test_vector_words3 : ∀ p ∈ (
  [(0x4A880A00A0800000, .vbcast ⟨false, 17, 0, 5, 0, 0, false, 10, 0x8, 0, 0x0⟩),
   (0x4B8A4006A0160000, .vcomp ⟨false, 17, 9, 0, 0, 3, false, 10, 0x1, 6, 0x0⟩),
   (0x4C8A4007A0000000, .vexpd ⟨false, 17, 9, 0, 0, 3, true, 10, 0x0, 0, 0x0⟩),
   (0x4D88000620008001, .vidx ⟨false, 17, 0, 0, 0, 3, false, 2, 0x0, 0, 0x8001⟩),
   (0x4E024A00A0850000, .vext ⟨false, 0, 9, 5, 0, 0, false, 10, 0x8, 5, 0x0⟩),
   (0x4F8A4A00A0800000, .vins ⟨false, 17, 9, 5, 0, 0, false, 10, 0x8, 0, 0x0⟩),
   (0x50024A0621250000, .vred ⟨false, 0, 9, 5, 0, 3, false, 2, 0x12, 5, 0x0⟩),
   (0xD1010C00A2020000, .vfred ⟨true, 0, 4, 6, 0, 0, false, 10, 0x20, 2, 0x0⟩),
   (0x52010C02A2120000, .vfredo ⟨false, 0, 4, 6, 0, 1, false, 10, 0x21, 2, 0x0⟩),
   (0xD8080000A0020000, .vld ⟨true, 1, 0, 0, 0, 0, false, 10, 0x0, 2, 0x0⟩),
   (0x59044006A00DA000, .vst ⟨false, 0, 17, 0, 0, 3, false, 10, 0x0, 13, 0xA000⟩),
   (0x5A28080320235800, .vgath ⟨false, 5, 0, 4, 0, 1, true, 2, 0x2, 3, 0x5800⟩),
   (0x5B026204201E9800, .vscat ⟨false, 0, 9, 17, 0, 2, false, 2, 0x1, 14, 0x9800⟩),
   (0x5C881205203E0000, .vglnk ⟨false, 17, 0, 9, 0, 2, true, 2, 0x3, 14, 0x0⟩),
   (0x5D19C80020259800, .vscnd ⟨false, 3, 7, 4, 0, 0, false, 2, 0x2, 5, 0x9800⟩),
   (0x5E39880028250000, .vamo ⟨false, 7, 6, 4, 0, 0, false, 2, 0x82, 5, 0x0⟩),
   (0x5F10C00020065864, .vwaitv ⟨false, 2, 3, 0, 0, 0, false, 2, 0x0, 6, 0x5864⟩),
   (0x60000006A00D0000, .vpref ⟨false, 0, 0, 0, 0, 3, false, 10, 0x0, 13, 0x0⟩),
   (0xE818000020000000, .mzero ⟨true, 3, 0, 0, 0, 0, false, 2, 0x0, 0, 0x0⟩),
   (0xE908860066000000, .mopa ⟨true, 1, 2, 3, 0, 0, false, 6, 0x60, 0, 0x0⟩),
   (0xEA010A0004400000, .mopai ⟨true, 0, 4, 5, 0, 0, false, 0, 0x44, 0, 0x0⟩),
   (0xEB10443066000000, .mopax ⟨true, 2, 1, 2, 3, 0, false, 6, 0x60, 0, 0x0⟩),
   (0xEC30400080000001, .mdrain ⟨true, 6, 1, 0, 0, 0, false, 8, 0x0, 0, 0x1⟩),
   (0x6D144000A0000003, .mfill ⟨false, 2, 17, 0, 0, 0, false, 10, 0x0, 0, 0x3⟩),
   (0xFC00000000000000, .vbar ⟨true, 0, 0, 0, 0, 0, false, 0, 0x0, 0, 0x0⟩),
   (0x7D00000000000000, .vnop ⟨false, 0, 0, 0, 0, 0, false, 0, 0x0, 0, 0x0⟩),
   (0xFE00000000000000, .vstop ⟨true, 0, 0, 0, 0, 0, false, 0, 0x0, 0, 0x0⟩)] : List (Nat × Instr)),
    decodeVector p.1 = .ok p.2 ∧ p.2.wf = true ∧ encode p.2 = .vector p.1 := by decide +kernel

/-- Words that are no instruction (R283, R289, R290): two reserved ones, the extension spaces, unassigned opcodes and function codes, fields that are not 0. -/
theorem test_rejected_words : (∀ p ∈ [(0, Reject.allZeros), (0xFFFFFFFF, .allOnes), (0xE0000000, .extension), (0xEFFFFFFF, .extension), (0x9C000000, .unassigned),
      (0x0400000F, .reservedField), (0x04611800 + 0x18, .reservedField), (0x7C000005, .reservedField), (0x84200000, .reservedField)], decodeScalar p.1 = .error p.2)
    ∧ ∀ p ∈ [(0, Reject.unassigned), (0x70 * 2 ^ 56, .extension), (0x73 * 2 ^ 56, .extension), (0x17 * 2 ^ 56, .unassigned), (0x7F * 2 ^ 56, .unassigned)],
      decodeVector p.1 = .error p.2 := by decide +kernel

/-! ### Hypotheses of the encoding statements -/

theorem wit_ScalarDecodeOfEncode : encode (.add 3 1 2) = .scalar 0x04611000 := by decide +kernel

theorem wit_VectorDecodeOfEncode : encode (.vadd ⟨true, 3, 1, 5, 0, 0, false, 2, 0x8, 0, 0x0⟩) = .vector 0x81184A0020800000 := by decide +kernel

/-- A word for each clause, the unassigned ones at the ends of their ranges. -/
theorem wit_EncodeOfDecode : decodeScalar 0x04611000 = .ok (.add 3 1 2)
    ∧ decodeVector 0x81184A0020800000 = .ok (.vadd ⟨true, 3, 1, 5, 0, 0, false, 2, 0x8, 0, 0x0⟩)
    ∧ (∀ op ∈ [0, 0x27, 0x37, 0x3C, 0x3F], let w := op * 2 ^ 26 + 1
        (decide (0 < w ∧ w < 0xFFFFFFFF) && decide (w / 2 ^ 26 = op)) = true)
    ∧ ∀ w ∈ [0xE0000000, 0xEFFFFFFF], 0x38 ≤ w / 2 ^ 26 ∧ w / 2 ^ 26 ≤ 0x3B := by decide +kernel

/-! ### Worked examples: scalar instructions -/

/-- gD after an instruction on g1 and g2. -/
def gives (i : Instr) (a b : Word) (d : Word) (fl : FlagSet := 0) : Bool :=
  nextAnd (exec i (hart [] fun n => if n = 1 then a else if n = 2 then b else 0)) fun t => t.g 3 = d && t.cur.fp.flags = fl

/-- The table after R306. -/
theorem test_integer_examples : (gives (.div 3 1 2) (-7) 2 0xFFFFFFFFFFFFFFFD && gives (.rem 3 1 2) (-7) 2 (-1) && gives (.divu 3 1 2) 0xFFFFFFFFFFFFFFF9 2 0x7FFFFFFFFFFFFFFC
    && gives (.remu 3 1 2) 0xFFFFFFFFFFFFFFF9 2 1 && gives (.mulh 3 1 2) (-1) (-1) 0 && gives (.mulhu 3 1 2) (-1) (-1) 0xFFFFFFFFFFFFFFFE
    && gives (.sar 3 1 2) 0x8000000000000000 65 0xC000000000000000 && gives (.ctz 3 1) 8 0 3 && gives (.sext 3 1 1) 0x12348001 0 0xFFFFFFFFFFFF8001
    && gives (.div 3 1 2) 0x8000000000000000 (-1) 0x8000000000000000 && gives (.rem 3 1 2) 7 0 7) = true := by decide +kernel

/-- The table of R325. -/
theorem test_fcvt_examples : (gives (.fcvt 3 1 0 10 2 0) 0xC0200000 0 0xFFFFFFFFFFFFFFFE 1 && gives (.fcvt 3 1 0 10 2 1) 0x4F687547 0 0x7FFFFFFF 16
    && gives (.fcvt 3 1 1 10 2 1) 0x4F687547 0 0xE8754700 && gives (.fcvt 3 1 0 3 10 0) 0x1000001 0 0x4B800000 1) = true := by decide +kernel

/-- 0 as a source and as a destination: g0 reads 0 and keeps nothing (R276). -/
theorem test_g0 : nextAnd (exec (.addi 0 1 5) (hart [] fun _ => 9)) (fun t => t.g 0 = 0 && t.pc = 0x10004) = true := by decide +kernel

/-- A misaligned load takes Misaligned with the address (R224, R313); its frame holds the PC. -/
theorem test_misaligned : nextAnd (exec (.ld 3 1 3 0 0 0) (hart [] fun _ => 0x10001)) (fun t => let f := t.frame t.cur 0
    t.cur.trap.depth = 1 && f.cause = 4 && f.tval = 0x10001 && f.epc = 0x10000 && t.g 3 = 0x10001) = true := by decide +kernel

/-- A table word of the scalar and of the vector form runs as the first instruction after reset (log 2). -/
theorem test_first_instruction : nextAnd (step (State.reset.withFetchWord 32 0x04611000)) (fun t => t.pc = 0x10004) = true
    ∧ nextAnd (step (State.reset.withFetchWord 64 0x81184A0020800000)) (fun t => t.cur.vec.strip.isSome) = true := by decide +kernel

/-! ### Worked examples: vectors -/

/-- Elements of width `w`, packed. -/
def pack (w : Nat) (xs : List Nat) : Nat := xs.foldr (fun x r => x % 2 ^ w + 2 ^ w * r) 0

/-- The elements of a register. -/
def unpack (w n r : Nat) : List Nat := (List.range n).map (elBits r w)

/-- The example after R330: VADDS.I8 with a mask, merging and zeroing, VL 6 and VBL 6. -/
theorem test_vadds_example : (let s := (strip 6 6 [] (pack 8 (List.replicate 8 77)) (pack 8 [100, 256 - 100, 5, 127, 255, 60, 9, 9]) (pack 8 [50, 256 - 50, 256 - 5, 1, 1, 60, 1, 1]) 0xDB)
    [(false, [127, 128, 77, 127, 0, 77, 77, 77]), (true, [127, 128, 0, 127, 0, 0, 77, 77])].all fun p =>
      nextAnd (exec (.vadds { vf 0 1 2 0 1 0 0 0 0 with zm := p.1 }) s) fun t => unpack 8 8 (t.v 0) = p.2) = true := by decide +kernel

/-- The same with a block of 32: elements 6 to 31 are pad elements, 32 is tail. -/
theorem test_vadds_pad : (let s := (strip 6 32 [] (pack 8 (List.replicate 40 77)) (pack 8 [100, 156, 5, 127, 255, 60, 9, 9]) (pack 8 [50, 206, 251, 1, 1, 60, 1, 1]) 0xDB)
    nextAnd (exec (.vadds (vf 0 1 2 0 1 0 0 0 0)) s) fun t => unpack 8 40 (t.v 0) = [127, 128, 77, 127, 0, 77] ++ List.replicate 26 0 ++ List.replicate 8 77) = true := by
  decide +kernel

/-- The example of R342: VCONF on 3, 5, 3, 3, 5, 7. -/
theorem test_vconf_example : (let s := strip 6 6 [] 0 (pack 32 [3, 5, 3, 3, 5, 7]) 0 0
    nextAnd (exec (.vconf (vf 2 1 0 0 0 2 0 0 0)) s) (fun t => t.m 2 % 64 = 0b100011)
      && nextAnd (exec (.vconf (vf 2 1 0 0 0 2 1 0 0)) s) (fun t => t.m 2 % 64 = 0b111000)
      && nextAnd (exec (.vconf (vf 2 1 0 0 0 2 2 0 0)) s) (fun t => unpack 32 6 (t.v 2) = [1, 1, 2, 3, 2, 1])) = true := by decide +kernel

/-- R344: VSWZ.XOR.F32 with 3 reverses each group of four; VSWZ.DUP.F32 with 0 copies its first element. -/
theorem test_vswz_example : (let s := strip 8 8 [] 0 (pack 32 [1, 2, 3, 4, 5, 6, 7, 8]) 0 0
    nextAnd (exec (.vswz (vf 2 1 0 0 0 10 0 0 3)) s) (fun t => unpack 32 8 (t.v 2) = [4, 3, 2, 1, 8, 7, 6, 5])
      && nextAnd (exec (.vswz (vf 2 1 0 0 0 10 1 0 0)) s) (fun t => unpack 32 8 (t.v 2) = [1, 1, 1, 1, 5, 5, 5, 5])) = true := by decide +kernel

/-- The example of R351: 2^24 + 1 + 1 + 1 in order and as a tree, with the index of NX. -/
theorem test_sum_orders : (let s := strip 4 4 [] 0 (pack 32 [0x4B800000, 0x3F800000, 0x3F800000, 0x3F800000]) 0 0
    let ex (t : State) : Option (BitVec 32) := t.cur.vec.strip.map fun x => x.eidx[4]
    nextAnd (exec (.vfredo (vf 0 1 0 0 0 10 0 2 0)) s) (fun t => t.cur.vec.yBlock[2] = 0x4B800000 && ex t = some 1)
      && nextAnd (exec (.vfred (vf 0 1 0 0 0 10 0 2 0)) s) (fun t => t.cur.vec.yBlock[2] = 0x4B800001 && ex t = some 0)) = true := by decide +kernel

/-- The table of R334: 0.5, 1.5, −140, −150, 128. -/
theorem test_vfexp2f_example : (let s := strip 5 5 [] 0 (pack 32 [0x3F000000, 0x3FC00000, 0xC30C0000, 0xC3160000, 0x43000000]) 0 0
    nextAnd (exec (.vfexp2f (vf 2 1 0 0 0 10 0 0 0)) s) fun t => unpack 32 5 (t.v 2) = [0x3FB504F3, 0x403504F3, 0x200, 0, 0x7F800000]) = true := by decide +kernel

/-- The example of R256: an E4M3 block with 1,000 and 3.3, at the scale 0x80. -/
theorem test_vqmx_example : (let s := strip 2 2 [] 0 (pack 32 [0x447A0000, 0x40533333]) 0 0
    nextAnd (exec (.vqmx (vf 0 1 0 2 0 6 0xA0 0 0)) s) fun t => unpack 8 2 (t.v 0) = [0x7E, 0x3D] && unpack 8 1 (t.v 2) = [0x80]) = true := by decide +kernel

/-- The example after R372: FP cell (100, 37) on a square of 4 Pods lies on lane 164. -/
theorem test_cell_lane : cellLane 16 100 37 = 164 ∧ 0x7FC00000 + cellLane 16 100 37 * 4096 + 300 = 0x7FCA412C := by decide +kernel

/-! ### Worked examples: tokens, translation, digests -/

/-- The word of node 5 over two generations (the example before R84). -/
theorem test_token_example : tokstep 0x0004000200000001 1 5 = (0x0005000200010000, false) ∧ tokstep 0x0005000200010000 1 5 = (0x0005000200000001, true)
    ∧ tokstep 0x0005000200000001 1 5 = (0x0005000200000003, false) ∧ tokstep 0x0005000200000003 1 6 = (0x0006000200010000, false) := by decide +kernel

/-- The translation after R175: a store of slot 7 at user level to 0x0000_0800_8064_1F00. -/
theorem test_walk_example : (let s := (hart [] fun _ => 0).onStore fun st => { st with
      bytes := [(0x400008, 0x420001), (0x420010, 0x430001), (0x430018, 0x431001), (0x431020, 0x070000000123002F)].foldl (fun m e => Mem.writeN m e.1 8 e.2) []
      keys := [(0, .loaded 0 1), (7, .loaded 2 3), (8, .loaded 4 5)] }
    let cx (k : Nat) : Ctx := { s.cur.cx with key := k }
    okAnd (resolve s (cx 7) .write 0x0000080080641F00) (fun p _ => p.loc = 0x1231F00 && p.key = 7)
      && trapAnd (resolve s (cx 8) .write 0x0000080080641F00) (fun c v _ => c = 6 && v = 0x0000080080641F00) && homeDie 0x1231F00 = 1) = true := by decide +kernel

/-- SHA-512 of "abc" and CRC-32C of "123456789" (log 26). -/
theorem test_digests : ofBytes ((sha512 [0x61, 0x62, 0x63]).take 8).reverse = 0xDDAF35A193617ABA
    ∧ crc32c [0x31, 0x32, 0x33, 0x34, 0x35, 0x36, 0x37, 0x38, 0x39] = 0xE3069283 := by decide +kernel

/-- The X25519 vector of RFC 7748, section 5.2. -/
theorem test_x25519 : ofBytes (x25519 (toBytes 32 0xC49A44BA44226A50185AFCC10A4C1462DD5E46824B15163B9D7C52F06BE346A5) (toBytes 32 0x4C1CABD0A603A9103B35B326EC2466727C5FB124A4C19435DB3030586768DBE6)) = 0x5285A2775507B454F7711C4903CFEC324F088DF24DEA948E90C6E99D3755DAC3 := by decide +kernel

/-- The public key of test 1 of RFC 8032, section 7.1. -/
theorem test_ed25519_public : ofBytes (edPublic (toBytes 32 0x607FAE1C03AC3B701969327B69C54944C42CEC92F44A84BA605AFDEF9DB1619D)) = 0x1A5107F7681A02AF2523A6DAF372E10E3A0764C9D3FE4BD5B70AB18201985AD7 := by decide +kernel

/-- The AES-256 vector of FIPS 197, appendix C.3. -/
theorem test_aes : aesDecrypt (aesRoundKeys (List.range 32)) [0x8E, 0xA2, 0xB7, 0xCA, 0x51, 0x67, 0x45, 0xBF, 0xEA, 0xFC, 0x49, 0x90, 0x4B, 0x49, 0x60, 0x89]
    = (List.range 16).map (17 * ·) := by decide +kernel

/-- HKDF-SHA-512 without a salt, computed with another implementation. -/
theorem test_hkdf : ofBytes (hkdf (toBytes 22 0x0B0B0B0B0B0B0B0B0B0B0B0B0B0B0B0B0B0B0B0B0B0B) [0x61, 0x62]) = 0xD62D5214E0A57BDF20A8920AF1132F7DEA9A0D3742DAD74E0D209AD0B4BFE5AA := by decide +kernel

end Sys2Proof.Tests
end

