-- ==== Sys2Proof/Tests/WitnessSystem.lean ====
section
/-! SUPPORT. For each statement about leases, strips, streams, queues, barriers and messages that has hypotheses, states and
operands that meet them. -/

set_option Elab.async false

namespace Sys2Proof.Tests

open Sys2Proof.Machine

/-- Does R290 let the instruction run (`State.admits`)? -/
def lets (s : State) (i : Instr) : Bool := s.cur.refuses i = none

theorem admits_of {s : State} {i : Instr} (h : lets s i = true) : s.admits i := by
  unfold State.admits
  exact of_decide_eq_true h

/-- A hart with g1 and g2. -/
def two (a b : Word) : State := hart [] fun i => if i = 1 then a else if i = 2 then b else 0

/-- A hart with an open strip and an empty vector queue. -/
def idle (a b : Word) : State :=
  (strip 4 4 [] 0 0 0 0 fun i => if i = 1 then a else if i = 2 then b else 0).onCur fun x => { x with vec := { x.vec with queue := [] } }

/-- No Pod 0 is live in any cluster of die 0. -/
def worn (a : Word) : State :=
  (two a 0).onDie 0 fun d => { d with pods := (List.range 16).map fun c => (16 * c, { Pod.fresh with retired := true }) }

/-- A lease of `sq` Pods held, no strip. -/
def held (sq : Nat) : State := (two 0 0).onCur fun x => { x with
  lease := { x.lease with state := .held, pods := List.range (max 1 sq), next := max 1 sq, force := ⟨max 1 sq, max 1 sq, sq, 0, false⟩
                          req := ⟨max 1 sq, max 1 sq, sq, 0, false⟩ } }

/-- The same in a session. -/
def inSession : State := (held 1).onCur fun x => { x with vec := { x.vec with session := some ⟨true, 64, 64, 0, []⟩ } }

/-- Requests at the edges: one Pod, sixteen, none; broken ones; one that no cluster can meet. -/
theorem wit_LeaseInstructions_vlease :
    ([0x0101, 0x1010, 0].all fun w => lets (two (BitVec.ofNat 64 w) 0) (.vlease 3 1)
      && (Request.ofWord w).any fun r => r.ok && r.need ≤ (two 0 0).mostLive 0) = true ∧ (two 0 0).cur.vec.session = none
    ∧ (Request.ofWord 0x0001).any (fun r => !r.ok) = true ∧ Request.ofWord 0x0121 = none ∧ inSession.cur.vec.session.isSome = true
    ∧ lets inSession (.vlease 3 1) = true
    ∧ ((Request.ofWord 0x1010).any fun r => r.ok && (worn 0x1010).mostLive (worn 0x1010).cur.id.die < r.need) = true
    ∧ lets (worn 0x1010) (.vlease 3 1) = true := by decide +kernel

theorem wit_LeaseInstructions_rest : (lets (idle 0 0) .vrel && doneAnd (idle 0 0).commit (fun s1 => s1.cur.wait.cancel = none)) = true
    ∧ (idle 0 0).cur.vec.session = none ∧ (idle 0 0).cur.vec.queue = []
    ∧ ([1, 4, 16].all fun q => [0, 1].all fun k => lets (held q) (.mbegin k) && !(held q).cur.stripOpen && (held q).cur.vec.queue.isEmpty
        && (held q).cur.lease.state = .held && (held q).cur.lease.force.sq = q && (held q).cur.vec.session.isNone) = true
    ∧ (lets (idle 0 0) (.mbegin 0) && (idle 0 0).cur.stripOpen) = true ∧ (lets inSession (.mbegin 1) && inSession.cur.vec.session.isSome) = true
    ∧ (lets (two 0 0) (.mbegin 0) && (two 0 0).cur.lease.state = .none && !(two 0 0).cur.stripOpen) = true
    ∧ ((held 0).cur.lease.force.sq = 0 ∧ (held 0).cur.lease.state = .held) ∧ lets (idle 0 0) .mend = true
    ∧ (lets inSession .mend && !inSession.cur.stripOpen && inSession.cur.vec.queue.isEmpty && okAnd inSession.closeSession (fun _ _ => true)) = true := by
  decide +kernel

/-- A lease in another state, with bounds and what the arbiter gives for the next strip. -/
def leased (st : LeaseState) (next : Nat) : State := (idle 5 0).onCur fun x => { x with
  lease := { x.lease with state := st, next := next, req := ⟨1, 2, 0, 0, false⟩, force := ⟨1, 2, 0, 0, false⟩, promised := [1] } }

theorem wit_StripInstructions_vsetl : ([(LeaseState.none, 0), (.suspended, 1), (.held, 0), (.held, 1), (.held, 2)].all fun p =>
      [0, 1].all fun b => [0, 4, 10].all fun f => lets (leased p.1 p.2) (.vsetl 3 1 0 b f) && (leased p.1 p.2).cur.vec.queue.isEmpty
        && doneAnd (leased p.1 p.2).commit fun s1 => s1.cur.wait.cancel = none && s1.cur.lease.draining = none && s1.cur.wait.move = none
            && s1.cur.lease.state = p.1 && s1.cur.lease.next = p.2 && s1.cur.lease.req.sq = s1.cur.lease.force.sq
            && s1.cur.lease.req.quota = s1.cur.lease.force.quota && s1.cur.lease.req.min = 1
            && min p.2 2 ≤ s1.cur.lease.pods.length + s1.cur.lease.promised.length) = true
    ∧ (Fmt.ofCode 0).isSome = true ∧ (Fmt.ofCode 4).isSome = true ∧ (Fmt.ofCode 10).isSome = true := by decide +kernel

/-- A minimum of two Pods where one is held: the VSETL waits. -/
theorem wit_StripInstructions_waits : let s := (leased .held 1).onCur fun x => { x with lease := { x.lease with req := ⟨2, 2, 0, 0, false⟩ } }
    (lets s (.vsetl 3 1 0 0 10) && s.cur.vec.queue.isEmpty && doneAnd s.commit fun s1 => s1.cur.wait.cancel = none && s1.cur.lease.draining = none
      && s1.cur.wait.move = none && s1.cur.lease.state = .held && s1.cur.lease.req.sq = s1.cur.lease.force.sq
      && s1.cur.lease.req.quota = s1.cur.lease.force.quota && s1.cur.lease.next < s1.cur.lease.req.min
      && s1.cur.lease.pods.length ≤ s1.cur.lease.next) = true := by decide +kernel

/-- The strip with `n` blocks queued and `r` entries in its replay list. -/
def queued (a : Word) (n r : Nat) : State := (idle a 0).onCur fun x => { x with
  vec := { x.vec with queue := List.replicate n (block [] x.base.g), strip := x.vec.strip.map fun y => { y with replay := List.replicate r ⟨0, x.base.g, 0, 0⟩ } } }

theorem wit_StripInstructions_rest : lets (two 8 0) (.vfetch 1) = true ∧ (two 8 0).cur.vec.strip.isNone = true ∧ (two 8 0).cur.vec.reopen = none
    ∧ ([(0x10004, 0, 0), (0x10008, 4, 0), (0x10008, 3, 4), (0x10008, 3, 3)].all fun (p : Word × Nat × Nat) =>
        lets (queued p.1 p.2.1 p.2.2) (.vfetch 1) && (queued p.1 p.2.1 p.2.2).cur.vec.strip.any (!·.aborted)) = true
    ∧ ((queued 0x10004 0 0).g 1).toNat % 8 ≠ 0 ∧ Config.vqDepth ≤ (queued 0x10008 4 0).cur.vec.queue.length
    ∧ (queued 0x10008 3 4).cur.vec.queue.length < Config.vqDepth
    ∧ lets (queued 0 1 0) (.vsync 3) = true ∧ (queued 0 1 0).cur.vec.queue.length = 1 ∧ (lets (idle 0 0) (.vsync 3) && (idle 0 0).cur.vec.queue.isEmpty) = true
    ∧ (∀ s ∈ [idle 0 0, two 0 0], (lets s .vcommit && s.cur.vec.queue.isEmpty && doneAnd s.commit fun s1 =>
        s1.cur.wait.cancel = none && s1.cur.lease.draining = none && s1.cur.wait.move = none) = true)
    ∧ (idle 0 0).cur.stripOpen = true ∧ (two 0 0).cur.stripOpen = false := by decide +kernel

/-! ### Streams, queues, sync words -/

/-- A descriptor at 0x1_0000: base, S1 and S2, N1 and LEN, ESZ and SPACE. -/
def described (w3 : Nat) (a b : Word) : State :=
  (two a b).onStore fun st => { st with
    bytes := (((st.bytes.writeN 0x440000 8 0x20000).writeN 0x440008 8 4).writeN 0x440010 8 64).writeN 0x440018 8 w3 }

/-- The bytes of the descriptor are read: a legal one, one with ESZ 5. -/
theorem wit_StreamInstructions_qset : [0x0003, 0x0005].all (fun w => let s := described w 0x10000 0
    let cx := { s.cur.cx with keep := true }
    lets s (.qset 1 15) && s.cur.vec.queue.isEmpty && s.cur.vec.strip.isNone && okAnd (readMem s cx (s.g 1) 8 .plain) fun w0 s1 =>
      okAnd (readMem s1 cx (s.g 1 + 8) 8 .plain) fun w1 s2 => okAnd (readMem s2 cx (s.g 1 + 16) 8 .plain) fun w2 s3 =>
        okAnd (readMem s3 cx (s.g 1 + 24) 8 .plain) fun w3 _ => w0 = 0x20000 && w1 = 4 && w2 = 64 && w3 = w) = true := by decide +kernel

/-- A strip that names q3. -/
def naming : State := (idle 0x10000 0).onCur fun x => { x with vec := { x.vec with strip := x.vec.strip.map fun y => { y with named := [3] } } }

theorem wit_StreamInstructions_rest : (lets (two 0 0) (.qsetOff 0) && lets (two 0 0) (.qpos 3 1 15) && lets (two 0 0) (.qposRd 3 0)
      && lets (queued 0x10000 1 0) (.qset 1 0) && !(queued 0x10000 1 0).cur.vec.queue.isEmpty) = true
    ∧ ([Instr.qset 1 3, .qsetOff 3, .qpos 2 1 3, .qposRd 2 3].all fun i => lets naming i && naming.cur.vec.strip.any fun x => !x.aborted && x.named.contains 3) = true
    ∧ (idle 0 0).cur.vec.strip.any (fun x => !x.named.contains 3) = true
    ∧ ([0, 1].all fun x => [0, 1].all fun y => [0, 1].all fun z => (x.toNat + y.toNat + z.toNat = 0) || [2, 5].any fun c => lets (two 0 0) (.qfence c x y z)) = true := by
  decide +kernel

/-- A sync word of 16 bytes in the core's scratchpad; GEN is 0. -/
theorem wit_StreamInstructions_sync : (∀ i ∈ [Instr.swarm 3 1 2, .swwait 3 1 2], lets (two 0xFF00000000000008 0) i = true)
    ∧ ((two 0xFF00000000000008 0).g 1).toNat % 16 ≠ 0
    ∧ (∀ k ∈ [Kind.readWrite, .read], let s := two 0xFF00000000000010 0
        (lets s (.swarm 3 1 2) && okAnd (syncSpot s s.cur.cx k (s.g 1)) fun p s1 => s1.cur = s.cur && s1.peek ⟨p.loc + 8, p.key, p.win⟩ 4 = 0
          && s1.store.bytes.wf && !s1.writeLocked s.cur.cx (s.g 1) p && !s1.adLocked s.cur.cx (s.g 1) p false) = true ∧ s.leafOf (s.g 1) = none)
    ∧ (0 + 2 ^ 32 - (0x80000001 : Word).toNat) % 2 ^ 32 < 2 ^ 31 ∧ 2 ^ 31 ≤ (0 + 2 ^ 32 - (0x80000000 : Word).toNat) % 2 ^ 32 := by decide +kernel

/-- A word in a page of HBM. -/
theorem wit_StreamInstructions_elsewhere : (let s := two 0x10010 0
    [Kind.readWrite, .read].all fun k => lets s (.swarm 3 1 2) && lets s (.swwait 3 1 2) && okAnd (resolve s s.cur.cx k (s.g 1)) fun p _ =>
      spaceOf p.loc ≠ .core && spaceOf p.loc ≠ .chip) = true := by decide +kernel

/-- A hart at rest with two VIRT streams, `n` in g1, entries in the queues. -/
def copying (n g2 g3 : Word) (k : Nat) : State :=
  let q : Stream := ⟨0x10000, 1, 0, 64, 0, 1, 0, 0, true⟩
  (hart [] fun i => if i = 1 then n else if i = 2 then g2 else if i = 3 then g3 else 0).onCur fun x => { x with
    qs := { x.qs with q := Vector.replicate 16 q, cq0 := List.replicate k ⟨some q, 0, q, 1, 0, .user, 0, 0, .zero⟩
                      cq1 := List.replicate k ⟨some q, 0, q, 1, 0, .user, 0, 0, .zero⟩, xq := List.replicate k ⟨.put, 0, 0, 1, .user, 0, 0, .zero, none, none⟩ } }

theorem wit_QueueInstructions_copy : (copying 0 0 0 0).atRest
    ∧ ([(0, 0), (1, 0), (0xFFFFFFFF, 15), (1, 16)].all fun (p : Nat × Nat) => let s := copying (BitVec.ofNat 64 p.1) 0 0 p.2
        [0, 1].all fun k => lets s (.qcopy 3 1 2 k 5) && lets s (.qput 3 1 2 k 5) && (s.cur.stream 2).active && (s.cur.stream 2).space = 0
          && s.g 3 = 0 && (s.cur.stream 5).esz = (s.cur.stream 2).esz) = true
    ∧ (copying 1 0 0 15).cur.qs.cq0.length < Config.queueDepth ∧ Config.queueDepth ≤ (copying 1 0 0 16).cur.qs.cq1.length
    ∧ (let s := copying 1 0 0xFF00000000000010 0
       s.g 3 ≠ 0 ∧ okAnd (syncSpot s { s.cur.cx with wide := true, cls := 1 } .readWrite (s.g 3)) (fun _ _ => true) = true)
    ∧ lets ((copying 1 0 0 0).onCur fun x => { x with qs := { x.qs with q := Vector.replicate 16 .off } }) (.qcopy 3 1 2 0 5) = true := by
  unfold State.atRest
  decide +kernel

theorem wit_QueueInstructions_fabric : (∀ i ∈ [Instr.xput 3 1 2, .xget 3 1 2], lets (copying 0 0 0 0) i = true)
    ∧ 2 ^ 56 ≤ ((copying 0 0 0x100000000000000 0).g 3).toNat ∧ ((copying 0 0x100000000 0xFFFFFFFFFFFFFF 0).g 3).toNat < 2 ^ 56
    ∧ ((copying 0 0x100000000 0 0).g 2).toNat % 2 ^ 32 = 0 ∧ ((copying 0 1 0 15).g 2).toNat % 2 ^ 32 ≠ 0
    ∧ (copying 0 1 0 15).cur.qs.xq.length < Config.queueDepth
    ∧ lets (copying 0 0xFFFF 0 15) (.xsig 1 2) = true ∧ (copying 0 0xFFFF 0 15).g 2 ≠ 0 ∧ ((copying 0 0xFFFF 0 15).g 2).toNat < 2 ^ 16
    ∧ (copying 0 0 0 0).g 2 = 0 ∧ 2 ^ 16 ≤ ((copying 0 0x10000 0 0).g 2).toNat := by decide +kernel

/-! ### Waiting, barriers, messages, tokens, the end of a hart -/

/-- A hart with latched events. -/
def latched (e : BitVec 6) : State := (two 0 0).onCur fun x => { x with ev := { x.ev with evl := e } }

theorem wit_WaitsAndBarriers_wait : ([(2, 1), (1, 2), (0, 0x3F), (0x3F, 0x3F), (0x20, 0x20)].all fun (p : BitVec 6 × BitVec 6) =>
      lets (latched p.1) (.wait 3 p.2)) = true
    ∧ ((2 : BitVec 6).getLsbD 1 = true ∧ (1 : BitVec 6).getLsbD 1 = false) ∧ ((1 : BitVec 6) &&& 2 = 0) ∧ ((0x20 : BitVec 6) &&& 0x20 ≠ 0)
    ∧ (two 0 0).gangOf 7 = none ∧ ([Instr.bara 3 7, .barw 1 7, .barj 3 7, .barl 7].all fun x => lets (two 0 0) x) = true
    ∧ (∀ c ∈ [2, 5], ∀ k ∈ [1, 15], lets (two 0 0) (.fence c k) = true) := by decide +kernel

/-- A run of two harts with barriers, of which this hart is member 0; its arrivals, the other's, the released count; an arrived BARJ. -/
def gang (c0 c1 r : BitVec 32) (a : Word) (barj : Option (Nat × Nat)) : State :=
  let b : Barrier := ⟨(if c0 = 0 then [] else [(0, c0)]) ++ (if c1 = 0 then [] else [(1, c1)]), [], r⟩
  let run : Run :=
    { id := 9, home := 0, graph := 0, node := 0, gen := 0, slot := 0, ptroot := 0, state := .running, cores := true, place := 0, prio := 0
      gsize := 2, entry := 0, args := 0, req := .zero, entered := 0, toStart := [], live := [1, 2], failure := none, nfailh := 0
      bars := Vector.replicate 8 b, anchor := (0, 0), launch := false, committed := [], held := [], outputs := [], failedAt := 0, far := [], origin := none }
  ((two a 0).onCur fun x => { x with uid := 1, place := { x.place with hix := 0, gsz := 2, run := some 9 }, wait := { x.wait with barj := barj } }).onEngines
    fun e => { e with runs := [run] }

/-- Before the first episode: this hart arrives first, or last; it has arrived already; the episode is released; it has left. -/
theorem wit_WaitsAndBarriers_gang : ([gang 0 0 0 0 none, gang 0 1 0 0 none, gang 1 0 0 0 (some (7, 0)), gang 1 1 1 0 (some (7, 0))].all fun s =>
      (s.gangOf 7).any (fun r => !r.waitsCommit s.cur)
        && [Instr.bara 3 7, .barw 1 7, .barj 3 7, .barl 7].all (lets s)) = true
    ∧ Table.risingFrom 0 ([(0, 1), (1, 1)] : Table (BitVec 32))
    ∧ ((gang 1 0 0 0 none).gangOf 7).any (fun r => (r.bar 7).count 0 = (r.bar 7).r + 1) = true
    ∧ ((gang 0 1 0 0 none).gangOf 7).any (fun r => (r.bar 7).count 0 ≠ (r.bar 7).r + 1) = true
    ∧ (1 ≤ ((1 : BitVec 32).toNat + 2 ^ 32 - 0 % 2 ^ 32) % 2 ^ 32 ∧ ((1 : BitVec 32).toNat + 2 ^ 32 - 0 % 2 ^ 32) % 2 ^ 32 ≤ 2 ^ 31)
    ∧ ¬(1 ≤ ((0 : BitVec 32).toNat + 2 ^ 32 - 0 % 2 ^ 32) % 2 ^ 32)
    ∧ (gang 1 1 1 0 (some (7, 0))).cur.wait.barj = some (7, 0) := by
  simp only [Table.risingFrom]
  decide +kernel

/-- The gang's home engine is die 1's, with no link to it, or another package's. -/
theorem wit_WaitsAndBarriers_far : let s := gang 0 0 0 0 none
    (let u := s.onRun 9 fun r => { r with home := 1 }
     (u.gangOf 7).any (fun r => !r.waitsCommit u.cur && !u.joined r.home u.cur.id.die) = true ∧ [Instr.bara 3 7, .barw 1 7, .barj 3 7, .barl 7].all (lets u) = true)
    ∧ (s.gangOf 7).any (fun r => s.joined r.home s.cur.id.die) = true
    ∧ ((s.onRun 9 fun r => { r with origin := some (1, 3) }).gangOf 7).any (·.origin.isSome) = true := by decide +kernel

theorem wit_MessagesTokensAndEnds_msg : (two 0x08000041 0).atRest
    ∧ ([0x080041, 0xFF03FF].all fun w => [0, 1].all fun x => [0, 1].all fun r => lets (two (BitVec.ofNat 64 w) 0) (.msg 1 2 x r) && w / 2 ^ 10 % 2 ^ 6 = 0 && w < 2 ^ 24) = true
    ∧ 0x0400 / 2 ^ 10 % 2 ^ 6 ≠ 0 ∧ 2 ^ 24 ≤ 0x1000000 ∧ (two 0 0).cur.ev.out < 8
    ∧ ((two 0 0).onCur fun x => { x with ev := { x.ev with out := 8 } }).cur.ev.out = 8
    ∧ ((two 0 0).core ⟨1, 0, 1⟩).queue.length + ((two 0 0).core ⟨1, 0, 1⟩).wire.length < Config.queueDepth := by
  unfold State.atRest
  decide +kernel

/-- A handler in slot 7 for a message that asks for a token, or for none. -/
def handler (tok : Bool) : State :=
  let s := placeScalar { State.reset with cur := Hart.reset ⟨0, 0, 0, 7⟩ } 0
  s.onCur fun x => { x with handler := some ⟨⟨16, true, tok, ⟨0, 0, 0, 1⟩, 3, false, 0, 0x10000, Vector.replicate 6 0, 0, 0, 0⟩, 3, false, 0⟩ }

theorem wit_MessagesTokensAndEnds_mret : lets (handler true) (.mret 1) = true ∧ lets (two 0 0) (.mret 1) = true ∧ (two 0 0).cur.handler = none
    ∧ (handler false).cur.handler.any (fun h => !h.msg.tok) = true ∧ (handler true).cur.handler.any (·.msg.tok) = true
    ∧ okAnd (tokenSpot (handler true) (handler true).cur.cx 0x10000) (fun _ _ => true) = true := by decide +kernel

theorem wit_MessagesTokensAndEnds_ends : ([(0, 1), (0x10000, 0), (0x10000, 0x10000), (0x10004, 1), (0x1FFF8, 0xFFFF)].all fun (p : Nat × Nat) =>
      lets (two (BitVec.ofNat 64 p.1) (BitVec.ofNat 64 p.2)) (.token 1 2)) = true
    ∧ okAnd (tokenSpot (two 0x1FFF8 1) (two 0x1FFF8 1).cur.cx ((two 0x1FFF8 1).g 1)) (fun _ _ => true) = true
    ∧ ((two 0x10004 1).g 1).toNat % 8 ≠ 0
    ∧ (lets (idle 0 0) .texit && (idle 0 0).cur.vec.queue.isEmpty && doneAnd (idle 0 0).commit fun s1 => s1.cur.lease.area = none) = true
    ∧ doneAnd (gang 0 0 0 0 none).commit (fun s1 => (s1.runOf s1.cur).isSome) = true
    ∧ (∀ s ∈ [two 0 0, inSession], nextAnd (exec .texit s) (fun t => t.cur.qs.empty && okAnd t.closeSession fun _ _ => true) = true)
    ∧ lets (idle 0xFFFF 0) (.tfail 1) = true ∧ (idle 0 0).runOf (idle 0 0).cur = none ∧ (idle 0 0).cur.base.level = .user := by decide +kernel

end Sys2Proof.Tests
end

