-- ==== Sys2Proof/Tests/WitnessEvents.lean ====
section
/-! SUPPORT. For each statement about events that has hypotheses, states and operands that meet them. -/

set_option Elab.async false

namespace Sys2Proof.Tests

open Sys2Proof.Machine

/-- The hart slot in focus of the test states. -/
def h0 : HartId := ⟨0, 0, 0, 0⟩

/-- A strip with a block in its queue. -/
def busy (ended : Bool) : State := (idle 0 0).onCur fun x => { x with
  vec := { x.vec with queue := [{ block [] x.base.g with ended := ended }] } }

/-! ### A hart -/

theorem wit_HartEvents_traps : ((busy true).focus h0).cur.stopped = false ∧ ((busy true).focus h0).cur.vec.queue.any (·.ended) = true
    ∧ (let u := ((two 0 0).onCur fun x => { x with trap := { x.trap with vtrap := some ⟨5, 0, 0⟩, held := [(0x20, 0)] } }).focus h0
       u.cur.trap.vtrap = some ⟨5, 0, 0⟩ ∧ u.cur.trap.depth = 0 ∧ u.cur.atIssue u.cycle = true)
    ∧ (let u := ((two 0 0).onCur fun x => { x with trap := { x.trap with held := [(0x20, 0)] } }).focus h0
       u.cur.trap.held = [(0x20, 0)] ∧ u.cur.trap.vtrap = none ∧ u.cur.trap.depth = 0 ∧ u.cur.atIssue u.cycle = true) := by decide +kernel

theorem wit_HartEvents_breakpoint :
    (let u := ((two 0 0).onCur fun x => { x with trap := { x.trap with afterTret := false, bpa0 := 0x10001 } }).focus h0
     u.cur.trap.afterTret = false ∧ u.cur.trap.first = false ∧ u.cur.atIssue u.cycle = true ∧ u.cur.breakpoint false u.pc = some 1)
    ∧ (let u := ((busy false).onCur fun x => { x with trap := { x.trap with bpctl := false, bpa1 := 0x10003 } }).focus h0
       u.cur.breakpoint false u.pc = none ∧ u.cur.vectorBreak = some 2 ∧ u.cur.vec.strip.isSome = true ∧ u.cur.vec.session = none)
    ∧ (let u := (busy false).focus h0
       u.cur.vec.strip.any (!·.aborted) = true ∧ u.cur.vec.queue.length = 1 ∧ u.cur.stopped = false ∧ u.cur.vec.session = none
       ∧ u.cur.lease.state = .held ∧ u.roundHolds u.cur = false) := by decide +kernel

/-- A VWAITV under way, with its deadline, woken, watching nothing or one word. -/
def watching (d : Nat) (ws : List Watch) : State :=
  (strip 4 4 [0x5F00000000000000 + 3 * 2 ^ 51 + 2 * 2 ^ 28 + 2 ^ 16 + 1] 0 0 0 0).onCur fun x => { x with
    qs := { x.qs with q := Vector.replicate 16 ⟨0x10000, 4, 0, 65536, 0, 3, 0, 0, true⟩ }
    wait := { x.wait with deadline := some d, woken := true, watch := ws } }

theorem wit_HartEvents_vwaitv : ([(300, []), (0, []), (300, [⟨1, 0x10004, 0x440004, 2⟩])].all fun p =>
    let u := (watching p.1 p.2).focus h0
    u.cur.vec.queue.any (fun b => match b.nextInstr with
      | some (.vwaitv f) => (u.vectorReady && (Instr.vwaitv f).legal && u.cur.hasFeatures (.vwaitv f))
          && (let m := u.vmem f (bitsOf f.fnN 2 2 = 1) true
              let r := m.round u.cur.vectorCx (decide (p.1 ≤ u.cycle)) u.cur.wait.watch (u.onCur fun x => { x with wait := { x.wait with woken := false } })
              (r.cur.wait.watch = [] || p.1 ≤ u.cycle || u.cycle < p.1) && r.cur.wait.bad = none)
      | _ => false) && u.cur.wait.deadline = some p.1 && u.cur.wait.woken) = true := by decide +kernel

/-- A cancel request of cycle 0, at cycle `t`. -/
def asked (s : State) (t : Nat) : State := { s.onCur fun x => { x with wait := { x.wait with cancel := some 0 } } with cycle := t }

theorem wit_HartEvents_cancel : ((asked (two 0 0) 1).focus h0).cur.cancelReady 1 = true ∧ (asked (two 0 0) 1).cycle = 1
    ∧ (let u := (asked (busy false) 2048).focus h0
       u.cur.wait.cancel = some 0 ∧ 0 + Config.boundaryLimit ≤ u.cycle ∧ u.cur.atBoundary = false ∧ u.cur.lease.state = .held ∧ u.cur.lease.susp = none
       ∧ u.cur.lease.draining = none)
    ∧ (let u := ((two 0 0).onCur fun x => { x with occ := .retiring true }).focus h0
       u.cur.occ = .retiring true ∧ u.cur.qs.cq0 = [] ∧ u.cur.qs.cq1 = [] ∧ u.cur.qs.xq = [] ∧ u.cur.vec.session = none ∧ u.runOf u.cur = none)
    ∧ (let u := ((gang 0 0 0 0 none).onCur fun x => { x with occ := .cancelled }).focus h0
       u.cur.occ = .cancelled ∧ (u.runOf u.cur).any (fun r => r.live.filter (· ≠ u.cur.uid) ≠ []) = true) := by decide +kernel

theorem wit_HartEvents_lock : (let s := (busy false).onStore fun st => { st with lockQueue := [4] }
      s.lockOver = true ∧ s.store.lockQueue.filter s.wantsLock = [4])
    ∧ (let s := (two 0 0).onStore fun st => { st with lockQueue := [8] }
       s.lockOver = true ∧ s.store.lockQueue.filter s.wantsLock = [])
    ∧ (let s : State := { (two 0 0).onStore fun st => { st with lock := some (4, [], 0) } with cycle := 65536 }
       s.store.lock = some (4, [], 0) ∧ 0 + 65536 ≤ s.cycle) := by decide +kernel

/-! ### Messages and queues -/

/-- A message for handler `hnd` with its first words. -/
def message (hnd : BitVec 8) (tok : Bool) (p : Vector Word 6) : Message := ⟨hnd, true, tok, h0, 1, false, 0, 0x10000, p, 0x400000, 0x10000, 0⟩

/-- A core with a message on its wire, or in its queue; MHBASE of the sender is 0x1_0000, where the entry of each handler stands. -/
def delivering (wire queue : List Message) : State :=
  { two 0 0 with cores := [⟨⟨0, 0, 0⟩, wire, queue, 6, [], [], none⟩] }

/-- The same at a core of die 1, whose link to die 0 retrains or not. -/
def farCore (wire queue : List Message) (links : List (Nat × Nat)) : State :=
  { two 0 0 with cores := [⟨⟨1, 0, 0⟩, wire, queue, 6, [], [], none⟩], links := links }

/-- Die 0's message arrives at die 1 unless the link is held; its entry lies on die 2, whose link may be held too. -/
theorem wit_MessageAndQueueEvents_held : (∀ p ∈ [([], false), ([(0, 1)], true)], let s := farCore [message 16 true default] [] p.1
      (s.core ⟨1, 0, 0⟩).wire.any (fun m => s.trafficHeld m.sender.die 1 = p.2) = true)
    ∧ (let s := farCore [] [message 16 true default] [(3, 1)]
       (s.core ⟨1, 0, 0⟩).queue.length = 1 ∧ (s.hart (CoreId.messageSlot ⟨1, 0, 0⟩)).occ = .empty ∧ s.handlerAllowed ⟨1, 0, 0⟩ = true
       ∧ s.hardwareHeld 1 (contextLoc (CoreId.messageSlot ⟨1, 0, 0⟩)) 128 = false
       ∧ stalls (handlerEntry (message 16 true default) ⟨1, 0, 0⟩ s) = true) := by decide +kernel

theorem wit_MessageAndQueueEvents_start : ((delivering [message 16 true default] []).core ⟨0, 0, 0⟩).wire.length = 1
    ∧ (let s := delivering [] [message 16 false (Vector.replicate 6 0)]
       (s.core ⟨0, 0, 0⟩).queue.length = 1 ∧ (s.hart (CoreId.messageSlot ⟨0, 0, 0⟩)).occ = .empty ∧ s.handlerAllowed ⟨0, 0, 0⟩ = true
       ∧ s.hardwareHeld 0 (contextLoc (CoreId.messageSlot ⟨0, 0, 0⟩)) 128 = false
       ∧ okAnd (handlerEntry (message 16 false (Vector.replicate 6 0)) ⟨0, 0, 0⟩ s) (fun _ _ => true) = true
       ∧ trapAnd (handlerEntry { message 16 false (Vector.replicate 6 0) with mhbase := 0x30000 } ⟨0, 0, 0⟩ s) (fun _ _ _ => true) = true) := by decide +kernel

/-- A handler under way in slot 7. -/
def handlingMsg (m : Message) (n : Nat) : State :=
  (placeScalar { State.reset with cur := Hart.reset ⟨0, 0, 0, 7⟩ } 0).onCur fun x => { x with handler := some ⟨m, n, false, 0⟩, base := { x.base with key := 0 } }

/-- A handler whose entry is still to be read. -/
theorem wit_MessageAndQueueEvents_entry : let m := message 16 false (Vector.replicate 6 0)
    let s := (handlingMsg m 0).onCur fun x => { x with handler := some ⟨m, 0, true, 2⟩ }
    (s.hart (CoreId.messageSlot ⟨0, 0, 0⟩)).handler = some ⟨m, 0, true, 2⟩ ∧ okAnd (handlerEntry m ⟨0, 0, 0⟩ s) (fun _ _ => true) = true := by decide +kernel

theorem wit_MessageAndQueueEvents_builtins : ((handlingMsg (message 16 false default) 256).focus (CoreId.messageSlot ⟨0, 0, 0⟩)).cur.handler.any (256 ≤ ·.issued) = true
    ∧ (∀ tok ∈ [false, true], (builtinRows ⟨0, 0, 0⟩).all (fun p =>
        let m := message (BitVec.ofNat 8 p.2.1) tok (Vector.ofFn fun i => if i.val = 0 then (if p.2.1 = 7 then 0xFF00000000000010 else 0x10008) else if i.val = 1 then 0x10010
          else if i.val = 2 then 8 else 0)
        let s := handlingMsg m 0
        let u := s.focus (CoreId.messageSlot ⟨0, 0, 0⟩)
        u.cur.handler.isSome && okAnd (p.2.2 m { u.cur.cx with keep := true } u) fun _ s1 => okAnd (tokenSpot s1 s1.cur.cx m.tokaddr) fun _ _ => true) = true)
    ∧ (let m := message 1 false (Vector.replicate 6 0x10004)
       let u := (handlingMsg m 0).focus (CoreId.messageSlot ⟨0, 0, 0⟩)
       (builtinRows ⟨0, 0, 0⟩).any (fun p => p.2.1 = 1 && trapAnd (p.2.2 m { u.cur.cx with keep := true } u) fun _ _ s1 => s1.cur.handler.isSome) = true)
    ∧ ((message 8 false default).hnd = 8 ∧ (message 8 false default).tok = false)
    ∧ (let s : State := { two 0 0 with replies := [⟨(two 0 0).cur.uid, 5, false, true, 0⟩] }
       s.replies.any (fun r => r.uid = (s.focus h0).cur.uid && !s.trafficHeld r.die 0) = true ∧ (s.focus h0).cur.occ = .running) := by decide +kernel

/-- A copy of one word of 32 bits from 0x1_0000 to `dest`. -/
def oneCopy (dest : Word) : CopyEntry :=
  let q (b : Word) : Stream := ⟨b, 1, 0, 64, 0, 1, 0, 0, true⟩
  ⟨some (q 0x10000), 0, q dest, 2, 0, .user, 0, 0, .zero⟩

/-- A hart with that entry in its queue 0. -/
def copyEntry (dest : Word) : State :=
  (hart [(6, 0x12E + 0x450000)] fun _ => 0).onCur fun x => { x with qs := { x.qs with cq0 := [oneCopy dest] } }

/-- The copy goes through, and faults at an address without a page. -/
theorem wit_MessageAndQueueEvents_copy : (let u := (copyEntry 0x10008).focus h0
      okAnd ((oneCopy 0x10008).run (u.cur.queueCx 1 0 .user) 2 u).2 fun _ _ => true) = true := by decide +kernel

theorem wit_MessageAndQueueEvents_copyFault : (let u := (copyEntry 0x30000).focus h0
      trapAnd ((oneCopy 0x30000).run (u.cur.queueCx 1 0 .user) 2 u).2 fun _ _ _ => true) = true := by decide +kernel

theorem wit_MessageAndQueueEvents_copyReady : ∀ d : Word, let u := (copyEntry d).focus h0
    u.cur.qs.cq0 = [oneCopy d] ∧ u.cur.qs.ready (oneCopy d).after = true := fun _ => ⟨rfl, rfl⟩

/-- A hart with one fabric entry towards an address. -/
def fabric (k : FabricKind) (remote : BitVec 56) (issued : Option Nat := none) : State :=
  (two 0 0).onCur fun x => { x with qs := { x.qs with xq := [⟨k, remote, 0x10000, 8, .user, 0, 0, .zero, issued, none⟩] } }

/-- To this package, and to package 1, whose replies come from outside. -/
theorem wit_MessageAndQueueEvents_fabric : (∀ k ∈ [FabricKind.put, .get, .signal], (fabric k 0x440008).cur.qs.xq.all (fun e =>
      (fabric k 0x440008).cur.qs.ready e.after && e.remote.toNat / 2 ^ 44 = (fabric k 0x440008).pkgid.toNat) = true)
    ∧ (∀ i ∈ [none, some 0], let u := (fabric .put 0x100000000000 i).focus h0
       u.cur.qs.xq.all (fun e => u.cur.qs.ready e.after && e.remote.toNat / 2 ^ 44 ≠ u.pkgid.toNat && e.issued = i && e.answer.isNone && u.cycle < 2400000
        && ([RemoteReply.done [], .refused 6 0, .unreachable].all fun r => (e.remotely (u.cur.queueCx 3 e.seq e.level) r u).isSome)) = true)
    ∧ (fabric .put 0x100000000000).livePlanes = []
    ∧ ((fabric .put 0x100000000000).onScalePort 2 35 fun p => { p with lanes := 4 }).livePlanes = [35]
    ∧ (let s : State := { fabric .put 0x100000000000 (some 0) with cycle := 2400000 }
       0 + 2400000 ≤ s.cycle ∧ s.cur.qs.xq.all (fun e => e.issued = some 0 && e.answer = none && okAnd (s.packageLost (e.remote.toNat / 2 ^ 44)) (fun _ _ => true)) = true) := by decide +kernel

/-! ### Leases -/

/-- A request that waits in cluster 0, with a spill pool of 64 areas; `taken` Pods held by another hart. -/
def requesting (need taken : Nat) (cycle : Nat) : State :=
  let s := (two 0 0).onCur fun x => { x with uid := 1, lease := { x.lease with state := .wait, req := ⟨need, need, 0, 0, false⟩, pri := 5 } }
  let y := { Hart.reset ⟨0, 0, 0, 1⟩ with uid := 2, occ := .running }
  let y := { y with lease := { y.lease with state := .held, pods := List.range taken, next := taken, force := ⟨taken, taken, 0, 0, false⟩
                                            req := ⟨taken, taken, 0, 0, false⟩ } }
  { s.onDie 0 fun d => { d with spln := 64 } with others := if taken = 0 then [] else [y], cycle := cycle }

/-- The requests at the next round. -/
def atRound (s : State) : State := (s.retireAll.flow (64 - s.cycle % 64)).retireAll

theorem wit_LeaseEvents_arbiter : ∀ c ∈ [0, 63, 64], let u := atRound (requesting 1 0 c)
    u.halted = false ∧ (requesting 1 0 c).retireAll.arbiters ≠ [] ∧ u.arbiters = [(0, 0)] ∧ u.leasesAt 0 0 = [u.cur] ∧ u.cur.lease.state = .wait ∧ u.cur.lease.need ≤ (u.livePods 0 0).length
      ∧ u.fits 0 0 u.cur.lease = true ∧ (u.assignArea u.cur.id).isSome = true := by decide +kernel

/-- Another lease holds all Pods of the cluster. -/
theorem wit_LeaseEvents_waits : let u := atRound (requesting 1 16 0)
    u.halted = false ∧ (requesting 1 16 0).retireAll.arbiters ≠ [] ∧ u.arbiters = [(0, 0)] ∧ u.cur ∈ u.leasesAt 0 0 ∧ (∀ x ∈ u.leasesAt 0 0, x = u.cur ∨ x.lease.state = .held ∧ x.lease.raised = false) ∧ u.cur.lease.state = .wait
      ∧ u.cur.lease.need ≤ (u.livePods 0 0).length ∧ u.fits 0 0 u.cur.lease = false := by decide +kernel

/-- The head's deadline: slot 1 in focus holds all Pods with priority 0, slot 0 has been the head since cycle 0. -/
def overdue (strip : Bool) : State :=
  let s := requesting 1 16 2048
  let s := s.focus ⟨0, 0, 0, 1⟩
  let s := s.onCluster 0 0 fun c => { c with head := some (1, 0) }
  if strip then s.onCur fun x => x.openStrip [] else s

theorem wit_LeaseEvents_deadline : ∀ b ∈ [true, false], let s := overdue b
    (s.cluster 0 0).head = some (1, 0) ∧ 0 + 2048 ≤ s.cycle ∧ s.cur.atBoundary = !b ∧ s.cur.lease.pods.length = 16
    ∧ (s.byUid 1).any (fun x => ((s.leasesAt 0 0).filter fun y => y.lease.state = .held && y.lease.draining.isNone && y.lease.susp.isNone
        && y.lease.pri < x.lease.effPri s.cycle && y.uid ≠ 1).map (·.uid) = [s.cur.uid] && 0 < s.podShortfall 0 0 x.lease) = true := by decide +kernel

/-- A HELD lease that is stopping, or suspended, and a slot that is pre-empted. -/
def stopping (drain : Option (Nat × Nat)) (susp : Option Suspension) (cycle : Nat) : State :=
  { (idle 0 0).onCur fun x => { x with lease := { x.lease with draining := drain, susp := susp } } with cycle := cycle }

theorem wit_LeaseEvents_spill : (let u := (stopping (some (0, 4)) none 2048).focus h0
      u.cur.lease.draining = some (0, 4) ∧ u.cur.lease.state = .held ∧ 0 + Config.boundaryLimit ≤ u.cycle ∧ u.cur.atBoundary = false)
    ∧ (let u := ((stopping (some (0, 4)) none 5).onCur fun x => { x with vec := { x.vec with strip := none } }).focus h0
       u.cur.lease.draining = some (0, 4) ∧ u.cur.lease.state = .held ∧ u.cur.atBoundary = true)
    ∧ (let u := (stopping none (some ⟨4, true, 1, none⟩) 0).focus h0
       u.cur.lease.susp = some ⟨4, true, 1, none⟩ ∧ u.cur.lease.state = .held ∧ u.cur.lease.area = none)
    ∧ (let u := (((stopping none (some ⟨4, false, 1, none⟩) 0).onCur fun x => { x with lease := { x.lease with area := some 0 } }).onDie 0 fun d =>
         { d with spln := 1, splbase := 0x100000000 }).focus h0
       u.cur.lease.area = some 0 ∧ u.areaOpen 0 ((u.die 0).areaLoc 0) (65536 + 20480 * 64 * u.cur.lease.pods.length) = true
       ∧ u.hardwareHeld 0 ((u.die 0).areaLoc 0) (65536 + 20480 * 64 * u.cur.lease.pods.length) = false ∧ u.store.bytes.wf = true)
    ∧ (let s := ((two 0 0).onCur fun x => { x with occ := .preempted }).onDie 0 fun d => { d with spln := 1, splbase := 0x100000000 }
       let u := s.focus h0
       u.cur.occ = .preempted ∧ u.cur.lease.state = .none ∧ u.cur.qs.cq0 = [] ∧ u.cur.qs.cq1 = [] ∧ u.cur.qs.xq = [] ∧ u.cur.ev.out = 0 ∧ u.cur.wait.cancel = none
       ∧ (u.assignArea h0).any (fun s1 => s1.areaOpen 0 ((s1.die 0).areaLoc (s1.cur.lease.area.getD 0)) 0x10000
         && !s1.packFrames.hardwareHeld 0 ((s1.packFrames.die 0).areaLoc (s1.cur.lease.area.getD 0)) 0x10000) = true) := by decide +kernel

end Sys2Proof.Tests
end

