-- ==== Sys2Proof/Tests/WitnessGraph.lean ====
section
/-! SUPPORT. For each clause of the statement about graph events, states that meet its hypotheses. -/

set_option Elab.async false
namespace Sys2Proof.Tests
open Sys2Proof.Machine

/-- Write fields: offset, bytes, value. -/
def fields (m : Mem) (base : Nat) (fs : List (Nat × Nat × Nat)) : Mem := fs.foldl (fun m f => m.writeN (base + f.1) f.2.1 f.2.2) m

/-- A graph of `n` nodes at 0x44_2000 in generation 5, its token words at 0x1_1000 with INIT 2, and further fields. -/
def written (n : Nat) (more : List (Nat × Nat × Nat)) : State :=
  (two 0 0).onStore fun st =>
    let m := fields st.bytes 0x441000 ((List.range n).map fun i => (8 * i, 8, 2 * 2 ^ 32))
    let m := fields m 0x442000 [(0, 4, 0x4852475A), (4, 2, 1), (8, 2, 5), (10, 2, 5), (12, 4, n), (56, 8, 0x400000)]
    let m := fields m 0x442100 ((List.range n).flatMap fun i => [(128 * i, 2, i), (128 * i + 8, 8, 0x11000 + 8 * i), (128 * i + 16, 8, 0x10000),
      (128 * i + 32, 4, 1)])
    { st with bytes := fields m 0x442000 more }

/-- Its record in the engines. -/
def theGraph (n : Nat) : Attached := ⟨0x442000, 0, 0, 0x400000, n, 0, []⟩

/-- The graph attached; of the engine's fields the engine holds the same values. -/
def attached (n : Nat) (more : List (Nat × Nat × Nat)) : State :=
  (written n more).onEngines fun e => { e with
    attached := [theGraph n], own := fields [] 0x442000 ((10, 2, 5) :: more)
    directory := (List.range n).map fun i => (0x441000 + 8 * i, (0x442000, i)) }

theorem graphOpen_of {s : State} {n : Nat} (hn : n ≤ 8) (o : s.store.owners = [(0x40, 0), (0x42, 0), (0x43, 0), (0x44, 0)])
    (k : s.store.keyLoaded 0 = true) (p : s.store.poison = []) (f : s.store.soft = []) : s.graphOpen (theGraph n) := by
  intro off m hm hb
  have e : ((theGraph n).spot off).loc = 0x442000 + off := rfl
  have l : 0x442000 + off < 0x450000 := by have : (theGraph n).ncount = n := rfl; omega
  have sp : spaceOf (0x442000 + off) = .hbm := by unfold spaceOf; rw [if_pos (by omega)]
  have ok : ownerKey (0x442000 + off) = 0x44 := by unfold ownerKey; rw [sp]; show (0x442000 + off) / 0x10000 = 0x44; omega
  have ic : inContext (0x442000 + off) = false := by unfold inContext; rw [sp]; rfl
  have ow : s.store.ownerOf (0x442000 + off) = 0 := by unfold Store.ownerOf; rw [ic, ok, o]; rfl
  have po : s.store.poisoned (0x442000 + off) m = false := by unfold Store.poisoned; rw [p, f]; simp
  have key : ((theGraph n).spot off).key = 0 := rfl
  have ch : ∀ w, s.check ((theGraph n).spot off) m w = none := fun w => by
    unfold State.check State.ownerCheck State.poisonCheck Store.guard
    rw [e, sp, key, k, ow, po]; simp
  exact ⟨by rw [e]; exact sp, by rw [e, ow]; rfl, ch true, ch false⟩

/-- The header is none of this package; a node's record is broken; the attach binds. -/
theorem wit_GraphEvents_gattach : (let s := written 2 []
      let a := s.readHeader 0x442001 s.cur.id.die
      (s.gaudit a 0 128).headerResult a ≠ 0)
    ∧ (∀ m ∈ [[], [(256 + 128 + 3, 1, 8)]], let s := written 2 m
        let a := s.readHeader 0x442000 s.cur.id.die
        let s0 := s.gaudit a 0 128
        (s0.headerResult a = 0 ∧ s.engines.directory = [])
        ∧ okAnd (attachNodes s0 a a.ncount 0 []) (fun r s1 => (if m = [] then r = .inr [0x441000, 0x441008] else r = .inl (7, 1))
          && !s1.graphLocked a && [0x441000, 0x441008].all (fun w => !s1.lockedFor a.home w 8)) = true) := by
  decide +kernel


/-- A directory of `n` words from `k` on. -/
def manyWords : Nat → Nat → Table (BitVec 56 × Nat)
  | 0, _ => []
  | n + 1, k => (k, (0x100, 0)) :: manyWords n (k + 1)

theorem manyWords_length (n k : Nat) : (manyWords n k).length = n := by
  induction n generalizing k with
  | zero => rfl
  | succ n ih => simp [manyWords, ih]

theorem manyWords_rising (n k lo : Nat) (h : lo ≤ k) : Table.risingFrom lo (manyWords n k) := by
  induction n generalizing k lo with
  | zero => trivial
  | succ n ih => exact ⟨h, ih _ _ (Nat.le_refl _)⟩

/-- The directory is full, or has no entry. -/
def directory (n : Nat) : State := (written 2 []).onEngines fun e => { e with directory := manyWords n 0x1000000 }

theorem wit_GraphEvents_gattachFull : let s := directory 262143
    Table.risingFrom 0 s.engines.directory ∧ 262144 < s.engines.directory.length + 2
      ∧ (let a := s.readHeader 0x442000 s.cur.id.die
         let s0 := s.gaudit a 0 128
         s0.headerResult a = 0 ∧ okAnd (attachNodes s0 a a.ncount 0 []) (fun r _ => r = .inr [0x441000, 0x441008]) = true) := by
  refine ⟨manyWords_rising _ _ _ (by decide), ?_, by decide +kernel⟩
  show 262144 < (manyWords 262143 0x1000000).length + 2
  rw [manyWords_length]
  decide

/-- A run of node 0 of the attached graph. -/
def oneRun (st : RunState) : Run :=
  { id := 9, home := 0, graph := 0x442000, node := 0, gen := 5, slot := 0, ptroot := 0x400000, state := st, cores := false, place := 0, prio := 0
    gsize := 2, entry := 0x10000, args := 7, req := .zero, entered := 3, toStart := [1], live := [1], failure := none, nfailh := 0
    bars := Vector.replicate 8 ⟨[], [], 0⟩, anchor := (0, 0), launch := false, committed := [], held := [], outputs := [], failedAt := 0, far := [], origin := none }

theorem wit_GraphEvents_gdetach : (written 2 []).attachedAt 0x442000 = none ∧ (attached 2 []).attachedAt 0x442000 = some (theGraph 2)
    ∧ ((attached 2 []).busyNodes (theGraph 2) = false ∧ okAnd (endTraces (attached 2 []) 0x442000 (List.range 16)) (fun _ _ => true) = true)
    ∧ (∀ st ∈ [3, 4, 8], (attached 2 [(256 + 128 + 2, 1, st), (256 + 128 + 4, 2, 5)]).busyNodes (theGraph 2) = true) := by decide +kernel

/-- The graph, of page tables at 0x60_0000, of which nothing is written. -/
def unmapped : Attached := { theGraph 2 with ptroot := 0x600000 }

/-- Tokens on their way to the first token word, and runs. -/
def coming (n addr : Nat) (rs : List Run) (more : List (Nat × Nat × Nat)) : State :=
  ((attached 2 more).onEngines fun e => { e with tokens := [⟨0, addr, n⟩], attached := [unmapped], runs := rs }).onCur fun x =>
    { x with base := { x.base with ptroot := 0x600000 } }

theorem read_of_mem {m : Mem} {c : Nat × Byte} : ∀ {lo}, Mem.wfFrom lo m = true → c ∈ m → m.read c.1 = c.2 ∧ c.2 ≠ 0 := by
  induction m with
  | nil => intro _ _ h; simp at h
  | cons d m ih =>
    intro lo h hc
    simp only [Mem.wfFrom, Bool.and_eq_true, decide_eq_true_eq, bne_iff_ne, ne_eq] at h
    rcases List.mem_cons.mp hc with rfl | hc
    · simp only [Mem.read]
      simp only [Nat.lt_irrefl, if_false, if_true, true_and]
      exact h.1.2
    · have := ih h.2 hc
      refine ⟨?_, this.2⟩
      have l : d.1 < c.1 := by
        by_contra q
        exact this.2 (this.1 ▸ Mem.read_of_wfFrom_lt h.2 (by omega))
      simp only [Mem.read]
      rw [if_neg (by omega), if_neg (by omega)]
      exact this.1

theorem read_of_not_mem {m : Mem} {a : Nat} (h : ∀ c ∈ m, c.1 ≠ a) : m.read a = 0 := by
  induction m with
  | nil => rfl
  | cons d m ih =>
    simp only [Mem.read]
    split
    · rfl
    · rw [if_neg (h d List.mem_cons_self)]
      exact ih fun c hc => h c (List.mem_cons_of_mem _ hc)

/-- The memories lie below 0x46_0000, so no page table at 0x60_0000 leads to the token word. -/
theorem coming_plain (n addr : Nat) (rs : List Run) (more : List (Nat × Nat × Nat))
    (low : (coming n addr rs more).store.bytes.all (fun c => c.1 < 0x460000) = true) :
    (coming n addr rs more).plainWord unmapped ⟨0x441000, 0, 2⟩ := by
  intro b hb same
  have small : ∀ t, ∀ d ∈ ((coming n addr rs more).withBytes b).namers t, d < 0x460000 := by
    intro t d hd
    obtain ⟨c, hc, rfl⟩ := List.mem_map.mp hd
    have hc := (List.mem_filter.mp hc).1
    have r := read_of_mem hb hc
    by_contra q
    have e := same c.1 (.inr (by show 0x441000 + 8 ≤ c.1; omega)) (.inr (by show 0x442000 + 256 + 128 * 2 ≤ c.1; omega))
    have z : (coming n addr rs more).store.bytes.read c.1 = 0 := read_of_not_mem fun x hx hxc => by
      have := of_decide_eq_true (List.all_eq_true.mp low x hx)
      omega
    exact r.2 (by rw [← r.1, e, z])
  have leaf : ((coming n addr rs more).withBytes b).isLeaf 0x441000 = false := by
    unfold State.isLeaf
    simp only [List.any_eq_false]
    intro x _ h1
    obtain ⟨y, _, h2⟩ := List.any_eq_true.mp h1
    obtain ⟨d, hd, h3⟩ := List.any_eq_true.mp h2
    have := small _ d hd
    have root : ∀ q : Nat, q / 0x20000 * 0x20000 = 0x600000 → 0x600000 ≤ q := by omega
    have : ¬((0 : Nat) * 2 ^ 44 + d / 0x20000 * 0x20000 = 0x600000) := by omega
    simp only [Bool.or_eq_true] at h3
    rcases h3 with h3 | h3
    · obtain ⟨x, hx, hx'⟩ := List.any_eq_true.mp h3
      have : x = (coming n addr rs more).cur := by
        have e : ((coming n addr rs more).withBytes b).harts ++ ((coming n addr rs more).withBytes b).engines.parked = [(coming n addr rs more).cur] := rfl
        rw [e] at hx
        exact List.mem_singleton.mp hx
      subst this
      have := of_decide_eq_true hx'
      exact absurd this.symm (by show ¬(0 * 2 ^ 44 + d / 0x20000 * 0x20000 = 0x600000); omega)
    · obtain ⟨x, hx, hx'⟩ := List.any_eq_true.mp h3
      have : x = unmapped := List.mem_singleton.mp hx
      subst this
      have := of_decide_eq_true hx'
      exact absurd this.symm (by show ¬(0 * 2 ^ 44 + d / 0x20000 * 0x20000 = 0x600000); omega)
  have hit : ((coming n addr rs more).withBytes b).engineHit 0x441000 8 = [] := by
    show [unmapped].flatMap _ = []
    simp only [List.flatMap_cons, List.flatMap_nil, List.append_nil]
    rw [if_pos (.inl (by decide))]
  unfold State.wild
  show ((coming n addr rs more).withBytes b).engineHit 0x441000 8 ++ _ = []
  rw [hit, List.nil_append]
  unfold State.leafHit
  have e : (List.range (((⟨0x441000, 0, 2⟩ : Spot).loc + 8 + 7) / 8 - (⟨0x441000, 0, 2⟩ : Spot).loc / 8)).map (fun i => 8 * ((⟨0x441000, 0, 2⟩ : Spot).loc / 8 + i))
      = [0x441000] := by decide
  rw [e]
  simp only [List.flatMap_cons, List.flatMap_nil, List.append_nil, leaf, Bool.and_false, Bool.false_eq_true, if_false]

/-- Too few tokens, or enough; the first of a generation, or a later one; a word that no graph has bound. -/
theorem wit_GraphEvents_tokenStep : (∀ n ∈ [1, 2], ∀ m ∈ [[], [(16, 1, 1)]], let s := coming n 0x441000 [] m
      s.engines.tokens.find? (fun t => t.die = 0) = some ⟨0, 0x441000, n⟩ ∧ Table.get noBinding s.engines.directory 0x441000 = (0x442000, 0)
        ∧ s.attachedAt 0x442000 = some unmapped ∧ s.graphOpen unmapped ∧ s.plainWord unmapped ⟨0x441000, 0, 2⟩ ∧ s.memOk ∧ spaceOf 0x441000 = .hbm
        ∧ s.store.ownerOf 0x441000 = 0
        ∧ s.check ⟨0x441000, 0, 2⟩ 8 true = none ∧ (tokstep (s.peek ⟨0x441000, 0, 2⟩ 8) n (s.gen unmapped)).2 = decide (n = 2)
        ∧ (s.graphLocked unmapped = false ∧ s.lockedFor 0 0x441000 8 = false ∧ s.trafficHeld 0 0 = false ∧ s.linkHeld 0 0x441000 = false
          ∧ s.gread unmapped 10 2 = s.gen unmapped ∧ s.visiting unmapped 0 = none)
        ∧ s.nodeState unmapped 0 = 0 ∧ decide (s.gread unmapped 16 1 ≠ 0 ∧ s.gread unmapped 10 2 = s.gen unmapped) = decide (m ≠ []))
    ∧ (coming 1 0x440000 [] []).attachedAt (Table.get noBinding (coming 1 0x440000 [] []).engines.directory 0x440000).1 = none := by
  refine ⟨fun n hn m hm => ?_, by decide +kernel⟩
  simp only [List.mem_cons, List.mem_nil_iff, or_false] at hn hm
  refine ⟨?_, ?_, ?_, graphOpen_of (n := 2) (by decide) ?_ ?_ rfl rfl, coming_plain _ _ _ _ ?_, ?_, ?_, ?_⟩ <;>
    ((try unfold State.memOk); rcases hn with rfl | rfl <;> rcases hm with rfl | rfl <;> decide +kernel)

/-- A run of an earlier generation that is not over, or over: the node's firing is deferred, or not. -/
theorem wit_GraphEvents_deferred : ∀ p ∈ [(RunState.running, true), (.aborted, false)], let q := { oneRun p.1 with gen := 4 }
    let s := coming 2 0x441000 [q] []
    q ∈ s.engines.runs ∧ q.graph = 0x442000 ∧ q.node = 0 ∧ q.gen.toNat ≠ s.gen unmapped ∧ q.busy = p.2 ∧ s.nodeState unmapped 0 ≤ 1
      ∧ s.visiting unmapped 0 = none ∧ s.graphLocked unmapped = false ∧ s.store.bytes.wf = true
      ∧ (tokstep (s.peek ⟨0x441000, 0, 2⟩ 8) 2 (s.gen unmapped)).2 = true := by
  decide +kernel

/-- A hart in a slot. -/
def at_ (h : HartId) (uid : Nat) : Hart := { Hart.reset h with uid := uid, occ := .running }

/-- One program slot is free in cluster 0 of dies 0 and 1; a request of 16 Pods fits in no other cluster. Node 0 is READY; its record gets `more`. -/
def tight (more : List (Nat × Nat × Nat)) : State :=
  let s := attached 2 more
  let full (d : Nat) : List Hart := (List.range 111).map fun i => at_ ⟨d, 0, (i + 1) / 7, (i + 1) % 7⟩ (100 + d * 112 + i)
  let worn (d : Nat) : List (Nat × Pod) := ((List.range 16).filter fun c => 2 ≤ d || c ≠ 0).map fun c => (16 * c, { Pod.fresh with retired := true })
  let s := { s with cur := Hart.reset ⟨0, 0, 0, 0⟩, others := full 0 ++ full 1 }
  let s := [0, 1, 2, 3].foldl (init := s) fun s d => s.onDie d fun x => { x with pods := worn d, up := 0xF }
  { s with cycle := 200000 }

/-- Node 0 asks for 16 Pods. -/
def pods16 : List (Nat × Nat × Nat) := [(256 + 38, 1, 16), (256 + 39, 1, 16), (256 + 64, 8, 0x11100)]

/-- The entry of node 0. -/
def entry0 : Ready := ⟨0, 0x442000, 0, 0, 0, 0, none, false⟩

/-- The state in which the entry is dispatched: its slot's turn is taken, the record counted. -/
def atTurn (s : State) : State := (s.onEngines fun e => { e with turnSlot := Table.set firstTurn e.turnSlot 0 (0, 0) }).gaudit (theGraph 2) (nodeOff 0 0) 96

/-- The entry stands in the ready queue. -/
def waiting0 (more : List (Nat × Nat × Nat)) : State := (tight ([(256 + 2, 1, 2), (256 + 4, 2, 5)] ++ more)).onEngines fun e => { e with ready := [entry0] }

theorem wit_GraphEvents_turn : (waiting0 pods16).dispatchable 0 entry0 = true ∧ (waiting0 pods16).attachedAt 0x442000 = some (theGraph 2)
    ∧ turnOf [0] (Table.get 1 (waiting0 pods16).engines.weight) (Table.get firstTurn (waiting0 pods16).engines.turnSlot 0) = some (0, 0)
    ∧ Table.get 1 (waiting0 pods16).engines.weight 0 ≠ 0 := by decide +kernel

/-- A record with GSIZE 0; a CORES gang of 113 harts for one cluster; a lease that no cluster can hold. -/
theorem wit_GraphEvents_faults : (let s := atTurn (waiting0 [(256 + 32, 4, 0)])
      s.nodeOk (theGraph 2) 0 (s.gread (theGraph 2) (nodeOff 0 43) 1) = false ∧ okAnd ((s.leaveReady entry0).failPlacing (theGraph 2) 0 7 0) (fun _ _ => true) = true)
    ∧ (let s := atTurn (waiting0 [(256 + 6, 1, 4), (256 + 32, 4, 113)])
       (s.nodeOk (theGraph 2) 0 (s.gread (theGraph 2) (nodeOff 0 43) 1) && (s.gangFor (theGraph 2) entry0).cores && (s.gangFor (theGraph 2) entry0).gsize > largestGang (s.gangFor (theGraph 2) entry0).place)
         = true)
    ∧ (let s := (atTurn (waiting0 pods16)).onDie 0 fun d => { d with pods := (List.range 16).map fun c => (16 * c, { Pod.fresh with retired := true }) }
       let s := s.onDie 1 fun d => { d with pods := (List.range 16).map fun c => (16 * c, { Pod.fresh with retired := true }) }
       (s.nodeOk (theGraph 2) 0 (s.gread (theGraph 2) (nodeOff 0 43) 1) && (s.gangFor (theGraph 2) entry0).req.min ≠ 0 && s.neverHolds (s.gangFor (theGraph 2) entry0)) = true) := by decide +kernel

/-- The reason, if any, for which a dispatch faults. -/
def whyNot (s : State) : Bool :=
  let g := s.gangFor (theGraph 2) entry0
  !s.nodeOk (theGraph 2) 0 (s.gread (theGraph 2) (nodeOff 0 43) 1) || (g.cores && decide (g.gsize > largestGang g.place)) || (g.req.min ≠ 0 && s.neverHolds g)

/-- A CORES gang of two harts finds no cluster with two free slots. -/
theorem wit_GraphEvents_noPlace : let s := atTurn (waiting0 ([(256 + 6, 1, 4), (256 + 32, 4, 2)] ++ pods16))
    s.graphLocked (theGraph 2) = false ∧ whyNot s = false
    ∧ okAnd (s.hartsToStart (theGraph 2) 0 2) (fun hs s1 => hs ≠ [] && s1.placesFor (s.gangFor (theGraph 2) entry0) hs = []
      && s1.farPlaces (s.gangFor (theGraph 2) entry0) hs = none) = true := by decide +kernel

theorem farPlaces_of {s : State} {g : Gang} {hs : List Nat} (p : g.place = 2) (c : g.cores = true)
    (o : takePlaces hs ((s.spreadDies g).flatMap (s.dieOffers g)) ≠ []) (l : s.livePlanes ≠ []) (f : Config.freeNat s.free < 4096)
    (k : Config.freeNat s.free ≠ s.pkgid.toNat) : ∃ ps pkg rest, s.farPlaces g hs = some (ps, pkg, rest) :=
  ⟨_, _, _, if_pos ⟨p, c, o, l, f, k⟩⟩

/-- The state of a CORES gang of three harts placed ANY, two of which find places in this package, with a scale-up port that works. -/
def crowded : State :=
  (atTurn (waiting0 ([(256 + 6, 1, 4), (256 + 7, 1, 2), (256 + 32, 4, 3)] ++ pods16))).onScalePort 2 35 fun p => { p with lanes := 4 }

/-- The gang goes over to another package where the free value names one (`farPlaces_of`). -/
theorem wit_GraphEvents_far : crowded.graphLocked (theGraph 2) = false ∧ whyNot crowded = false
    ∧ okAnd (crowded.hartsToStart (theGraph 2) 0 3) (fun hs s1 => let g := crowded.gangFor (theGraph 2) entry0
      hs ≠ [] && s1.placesFor g hs = [] && g.place = 2 && g.cores && takePlaces hs ((s1.spreadDies g).flatMap (s1.dieOffers g)) ≠ [] && s1.livePlanes ≠ []
        && okAnd (s1.resetMask (theGraph 2) 0 g.gsize) (fun _ s2 => okAnd (s2.outputs (theGraph 2) 0) fun _ _ => true)) = true := by decide +kernel

/-- An INDEP node of two harts whose done bits all stand: nothing is left to start. -/
theorem wit_GraphEvents_allDone : let s := atTurn ((waiting0 ([(256 + 6, 1, 2), (256 + 32, 4, 2), (256 + 37, 1, 1)] ++ pods16)).onStore fun st =>
      { st with bytes := st.bytes.writeN 0x441100 8 3 })
    whyNot s = false ∧ okAnd (s.hartsToStart (theGraph 2) 0 2) (fun hs s1 => hs = []
      && okAnd ((s1.leaveReady entry0).nodeEnds (theGraph 2) 0 5) (fun _ _ => true)) = true := by decide +kernel

/-- One hart finds its place; the two of a SPREAD gang find theirs on dies 0 and 1. -/
theorem wit_GraphEvents_placed : ∀ p ∈ [(0, 1, 1), (3, 2, 2)], let s := atTurn (waiting0 ([(256 + 7, 1, p.1), (256 + 32, 4, p.2.1)] ++ pods16))
    let g := s.gangFor (theGraph 2) entry0
    whyNot s = false ∧ okAnd (s.hartsToStart (theGraph 2) 0 g.gsize) (fun hs s1 => let ps := s1.placesFor g hs
      hs ≠ [] && okAnd (s1.resetMask (theGraph 2) 0 g.gsize) (fun _ s2 => okAnd (s2.outputs (theGraph 2) 0) fun _ _ => true) && ps ≠ [] && !s1.startHeld ps && (ps.map (·.2)).Nodup && (ps.map (·.2.die)).eraseDups.length = p.2.2) = true := by decide +kernel

theorem wit_GraphEvents_reservation : let r := { entry0 with tried := true }
    let s := (waiting0 pods16).onEngines fun e => { e with ready := [r] }
    (r.tried = true ∧ s.dispatchable 0 r = true) ∧ r.entered + Config.agePeriod ≤ s.cycle ∧ s.engines.reserved = [] ∧ s.allowedDies r ≠ [] := by
  decide +kernel

/-- A run under way, with a launch. -/
def running (r : Run) (ls : List Launch) (more : List (Nat × Nat × Nat)) : State :=
  (tight more).onEngines fun e => { e with runs := [r], launches := ls }

/-- The run asks for the Pods of its node. -/
def run16 (st : RunState) : Run := { oneRun st with req := ⟨16, 16, 0, 0, false⟩ }

theorem wit_GraphEvents_folded : let s := running (run16 .running) [] pods16
    s.attachedAt 0x442000 = some (theGraph 2) ∧ s.graphLocked (theGraph 2) = false ∧ (s.nextPlace (run16 .running) 1).head?.any (fun p => !s.startHeld [(1, p)]) = true := by decide +kernel

/-- A launch over dies 0 and 1. -/
def launch2 (h0 : List Nat) : Launch := ⟨9, [(0, h0), (1, [1])], [], [], [], [], [], [], 300000⟩

/-- The place of die 0 holds one hart, not two. -/
theorem wit_GraphEvents_prepare : ∀ hs ∈ [[0], [0, 2]], let l := { launch2 hs with prepare := [0, 1] }
    let s := running { run16 .placing with launch := true } [l] pods16
    let room := s.dieOffers (s.restOf { run16 .placing with launch := true }) 0
    s.launchOf 9 = some l ∧ s.runById 9 = some { run16 .placing with launch := true } ∧ 0 ∈ l.prepare ∧ s.attachedAt 0x442000 = some (theGraph 2) ∧ (s.attachedAt 0x442000).any s.graphLocked = false
      ∧ l.plan.find? (fun p => p.1 = 0) = some (0, hs) ∧ room.length = 1 ∧ room.Nodup ∧ s.startHeld (takePlaces hs room) = false := by decide +kernel

/-- The part of package 1, whose engine is told once an engine of this package has answered. -/
theorem wit_GraphEvents_prepareFar : let l : Launch := { launch2 [0] with plan := [(0, [0]), (5, [1])], prepare := [5], acks := [0] }
    let s := running { run16 .placing with launch := true } [l] pods16
    4 ≤ 5 ∧ s.launchOf 9 = some l ∧ s.runById 9 = some { run16 .placing with launch := true } ∧ 5 ∈ l.prepare ∧ s.attachedAt 0x442000 = some (theGraph 2)
      ∧ s.graphLocked (theGraph 2) = false ∧ l.plan.find? (fun p => p.1 = 5) = some (5, [1]) ∧ l.acks ++ l.prepared ≠ [] := by decide +kernel

/-- The launch with its messages, in a state at cycle `t`. -/
def launching (l : Launch) (r : Run) (more : List (Nat × Nat × Nat)) (t : Nat) : State := { running r [l] more with cycle := t }

/-- The run of a launch. -/
def lrun (st : RunState) : Run := { run16 st with launch := true }

theorem wit_GraphEvents_ack : (let l := { launch2 [0] with acks := [1] }
      (launching l (lrun .placing) pods16 300000).launchOf 9 = some l ∧ (launching l (lrun .placing) pods16 300000).runById 9 = some (lrun .placing)
        ∧ 1 ∈ l.acks ∧ l.deadline ≤ (launching l (lrun .placing) pods16 300000).cycle)
    ∧ (let l := { launch2 [0] with acks := [1] }
       1 ∈ l.acks ∧ (launching l (lrun .placing) pods16 299999).cycle < l.deadline ∧ (l.plan.map (·.1)).all (l.prepared ++ [1]).contains = false)
    ∧ (let l := { launch2 [0] with acks := [1], prepared := [0] }
       let s := launching l (lrun .placing) ([(256 + 2, 1, 3), (256 + 4, 2, 5)] ++ pods16) 299999
       s.cycle < l.deadline ∧ (l.plan.map (·.1)).all (l.prepared ++ [1]).contains = true ∧ l.plan.map (·.1) ≠ []
         ∧ s.attachedAt 0x442000 = some (theGraph 2) ∧ (lrun .placing).gen.toNat = s.gen (theGraph 2) ∧ s.nodeState (theGraph 2) 0 = 3 ∧ s.memOk) := by
  unfold State.memOk
  decide +kernel

theorem wit_GraphEvents_ackOpen : (launching { launch2 [0] with acks := [1], prepared := [0] } (lrun .placing) ([(256 + 2, 1, 3), (256 + 4, 2, 5)] ++ pods16)
    299999).graphOpen (theGraph 2) := graphOpen_of (by decide) (by decide +kernel) (by decide +kernel) (by decide +kernel) (by decide +kernel)

theorem wit_GraphEvents_nack : let l := { launch2 [0] with nacks := [1], acks := [0] }
    let s := launching l (lrun .placing) pods16 0
    s.launchOf 9 = some l ∧ 1 ∈ l.nacks ∧ 1 ∈ l.plan.map (·.1) ∧ 1 ∉ l.prepare ∧ s.attachedAt 0x442000 = some (theGraph 2)
      ∧ (lrun .placing).gen.toNat = s.gen (theGraph 2) ∧ s.cycle < l.deadline ∧ l.deadline ≤ (launching l (lrun .placing) pods16 300000).cycle := by decide +kernel

theorem wit_GraphEvents_timeout : let l := { launch2 [0] with prepare := [1], acks := [0] }
    let s := launching l (lrun .placing) ([(256 + 36, 1, 1)] ++ pods16) 300000
    l.deadline ≤ s.cycle ∧ l.commits = [] ∧ l.aborts = [] ∧ s.attachedAt 0x442000 = some (theGraph 2) ∧ (lrun .placing).gen.toNat = s.gen (theGraph 2)
      ∧ (∃ d ∈ l.plan.map (·.1), d ∉ l.prepare) ∧ s.gread (theGraph 2) (nodeOff 0 80) 8 = 0
      ∧ s.gread (theGraph 2) (nodeOff 0 37) 1 < s.gread (theGraph 2) (nodeOff 0 36) 1 := by decide +kernel

theorem wit_GraphEvents_commit : (let l := { launch2 [0] with commits := [0, 1] }
      (launching l (lrun .running) pods16 0).launchOf 9 = some l ∧ 0 ∈ l.commits
        ∧ ((lrun .running).held.filter fun f => f.2.loc.any fun h => h.die = 0) = [])
    ∧ (let l := { launch2 [0] with aborts := [0] }
       (launching l (lrun .aborted) pods16 0).launchOf 9 = some l ∧ 0 ∈ l.aborts ∧ (lrun .aborted).live ≠ []
         ∧ (launching l (lrun .aborted) pods16 0).engines.parked = []) := by decide +kernel

/-- A walk that comes to node 1, or whose visit of it is under way. -/
def walk1 (all : Bool) (v : Option Visit) : Walk := ⟨0, if v.isNone then [1] else [], [1], all, v⟩

/-- A graph with that walk. -/
def walkGraph (all : Bool) (v : Option Visit) : Attached := { theGraph 2 with walks := [walk1 all v] }

/-- The state at cycle 5. -/
def walking (all : Bool) (v : Option Visit) : State :=
  { (attached 2 []).onEngines fun e => { e with attached := [walkGraph all v] } with cycle := 5 }

/-- The visits: none yet, begun, with its node cancelled. -/
def visits : List (Option Visit) := [none, some ⟨1, 4, false, false, false, false⟩, some ⟨1, 3, true, true, false, true⟩]

theorem wit_GraphEvents_walk : ∀ b ∈ [true, false], ∀ v ∈ visits, let s := walking b v
    let a := walkGraph b v
    s.attachedAt a.header = some a ∧ a.walks = [walk1 b v] ∧ s.graphLocked a = false ∧ s.memOk
      ∧ (v = none → (walk1 b v).visit = none ∧ s.unreached a (walk1 b v).queue = [1])
      ∧ (v ≠ none → (walk1 b v).visit = v ∧ v.any (fun v => v.since < s.cycle && v.node < a.ncount) = true ∧ s.nodeState a 1 ≤ 2
        ∧ s.gread a (nodeOff 1 6) 1 / 32 % 2 = 0 ∧ s.cycle % 64 ≠ 63 ∧ s.unreached a (walk1 b v).queue = [])
      ∧ s.gread a (nodeOff 1 44) 2 = 0 ∧ s.gread a 48 8 = 0 := by
  unfold State.memOk
  decide +kernel

theorem wit_GraphEvents_walkOpen (b : Bool) (v : Option Visit) : (walking b v).graphOpen (walkGraph b v) :=
  graphOpen_of (s := walking b v) (n := 2) (by decide) rfl rfl rfl rfl

/-! ### Moves, pre-emption, Pods (LeaseEvents) -/

/-- The hart in focus, of a node placed ANY, on a die that node 1 has reserved since cycle 0; without or with an open strip. -/
def pressed (x : Hart) : State :=
  let s := attached 2 [(256 + 128 + 3, 1, 7)]
  let s := { s with cur := { x with uid := 1, occ := .running, place := { x.place with run := some 9 } }, cycle := 200000 }
  let s := [0, 1, 2, 3].foldl (init := s) fun s d => s.onDie d fun x => { x with up := 0xF }
  s.onEngines fun e => { e with runs := [{ oneRun .running with place := 2, prio := 0, entered := 200000 }], ready := [{ entry0 with node := 1, prio := 7 }]
                                reserved := [⟨0, 0x442000, 1, none, 0, [], []⟩] }

theorem wit_LeaseEvents_move : (∀ x ∈ [(two 0 0).cur, (idle 0 0).cur], let u := (pressed x).focus ⟨0, 0, 0, 0⟩
      u.movable u.cur 1 = true ∧ u.cur.wait.move = none ∧ u.others = []
        ∧ (u.moveSlots u.cur 1).any (fun g => !u.hardwareHeld g.die (contextLoc g) 128) = true)
    ∧ (two 0 0).cur.atBoundary = true ∧ (idle 0 0).cur.atBoundary = false
    ∧ (let u := ({ pressed (idle 0 0).cur with cycle := 202048 }.onCur fun x => { x with wait := { x.wait with move := some (1, 200000) } }).focus ⟨0, 0, 0, 0⟩
       u.cur.wait.move = some (1, 200000) ∧ 200000 + 2048 ≤ u.cycle ∧ u.cur.atBoundary = false) := by decide +kernel

/-- Slot 0 of die 0 has the number 0; a HELD lease inside a strip, at a boundary; a pre-empted hart that waits in the ready queue. -/
theorem wit_LeaseEvents_preempt : slotOfNumber 0 0 = ⟨0, 0, 0, 0⟩
    ∧ (∀ s ∈ [two 0 0, idle 0 0, held 1], (s.hart ⟨0, 0, 0, 0⟩).occ = .running ∧ (s.hart ⟨0, 0, 0, 0⟩).wait.preempt = false
        ∧ (s.hart ⟨0, 0, 0, 0⟩).lease.draining = none ∧ (s.hart ⟨0, 0, 0, 0⟩).lease.susp = none)
    ∧ ((idle 0 0).hart ⟨0, 0, 0, 0⟩).lease.state = .held ∧ ((idle 0 0).hart ⟨0, 0, 0, 0⟩).atBoundary = false
    ∧ ((held 1).hart ⟨0, 0, 0, 0⟩).lease.state = .held ∧ ((held 1).hart ⟨0, 0, 0, 0⟩).atBoundary = true
    ∧ (let x := { (two 0 0).cur with uid := 5, occ := .preempted }
       let s := (two 0 0).onEngines fun e => { e with ready := [{ entry0 with parked := some 5 }], parked := [x] }
       s.engines.ready = [{ entry0 with parked := some 5 }] ∧ s.engines.parked.map (·.uid) = [5] ∧ x.id.die = 0 ∧ s.engines.reserved = [] ∧ (s.restartSlots { entry0 with parked := some 5 } x).any (fun g => !s.hardwareHeld g.die (contextLoc g) 128) = true) := by
  decide +kernel

/-- A Pod that no lease holds, and one that a lease holds; EOL at and below HMARGIN; with a round in this cycle, or none. -/
theorem wit_LeaseEvents_pods : (∀ p ∈ [0, 1, 255], (((held 1).pod 0 p).live = true ∧ decide ((held 1).holders 0 p = []) = decide (p ≠ 0)))
    ∧ ((held 1).die 0).pods = [] ∧ (held 1).rounds = [] ∧ (1999 : BitVec 16).toNat < ((held 1).die 0).hmargin.toNat
    ∧ ((held 1).die 0).hmargin.toNat ≤ (2000 : BitVec 16).toNat
    ∧ (let s : State := { held 1 with rounds := [⟨0, 0, [], none, []⟩] }
       s.rounds.any (fun m => m.die = 0 && m.clu = 0) = true ∧ s.rounds.any (fun m => m.die = 0 && m.clu = 255 / 16) = false ∧ (s.pod 0 0).live = true) := by
  decide +kernel

/-! ### A hart that leaves by TEXIT (HartEvents) -/

/-- A hart that left by TEXIT, of the run of node 0, whose done-hart mask is at 0x1_1100; its home die is `home`. -/
def leaving (home : Nat) : State :=
  let s := attached 2 [(256 + 64, 8, 0x11100)]
  (s.onCur fun x => { x with uid := 1, occ := .retiring true, place := { x.place with run := some 9 } }).onEngines fun e => { e with
    runs := [{ oneRun .running with live := [1, 2], home := home }] }

/-- The home engine hears of it, or does not. -/
theorem wit_HartEvents_done : ∀ home ∈ [0, 1], let u := (leaving home).focus ⟨0, 0, 0, 0⟩
    u.cur.occ = .retiring true ∧ u.cur.qs.cq0 = [] ∧ u.cur.qs.cq1 = [] ∧ u.cur.qs.xq = [] ∧ u.cur.vec.session = none
      ∧ (u.runOf u.cur).any (fun r => !r.waitsCommit u.cur && r.state ≠ .aborted && u.joined r.home 0 = decide (home = 0)
        && okAnd (u.setDone r u.cur) fun _ v => (({ v with cur := v.cur.cleared } : State).runOf u.cur).any fun r1 => r1.live.filter (· ≠ u.cur.uid) ≠ []) = true
      ∧ u.attachedAt 0x442000 = some (theGraph 2) ∧ u.graphLocked (theGraph 2) = false ∧ u.gread (theGraph 2) (nodeOff 0 64) 8 = 0x11100
      ∧ okAnd (resolve (u.gaudit (theGraph 2) (nodeOff 0 64) 8) (theGraph 2).cx .readWrite 0x11100) (fun p s1 => spaceOf p.loc ≠ .host
        && s1.check p 8 true = none && !s1.writeLocked (theGraph 2).cx 0x11100 p && (let s2 := s1.setAD (theGraph 2).cx.root 0x11100 p true
          s2.syncHit p.loc 8 = [] && s2.wild p 8 false = [])) = true
      ∧ u.store.bytes.wf = true := by decide +kernel

end Sys2Proof.Tests
end

