-- ==== Sys2Proof/Tests/WitnessHost.lean ====
section
/-! SUPPORT. For each clause of the statements about host requests, start-up and the mailbox, and of the invariant of every step,
states that meet its hypotheses. -/

set_option Elab.async false

namespace Sys2Proof.Tests

open Sys2Proof.Machine

/-- A package after step `k` of start-up; slot 0 has its key and the frame 0x44, slot 5 a frame; entry 0 of HAPT opens slot 0's. -/
def started (k : Nat) : State :=
  let s := (hart [] fun _ => 0).onStore fun st => { st with owners := st.owners ++ [(0x60, 5)] }
  let s := [0, 1, 2, 3].foldl (init := s) fun s d => s.onDie d fun x => { x with boot := ⟨k, false, 0, 0⟩ }
  s.onPort fun q => { q with hapt := [(0, 0x100)], tokbase := 0x440001 }

/-- A state with canonical memories steps. -/
theorem wit_StepKeepsMemory : (started 8).memOk ∧ nextAnd (step (started 8)) (fun _ => true) = true := by
  unfold State.memOk
  decide +kernel

/-! ### The host -/

/-- Before start-up is over; a token page that is off, an offset off its word, a count of no tokens and of too many; a token page in
another slot's frame; a token step. -/
theorem wit_HostEvents_fetchadd : (started 7).hostClosed = true ∧ (started 8).hostClosed = false
    ∧ (((started 8).onPort fun q => { q with tokbase := 0x440000 }).port.tokbase.getLsbD 0 = false) ∧ 0x104 % 8 ≠ 0
    ∧ -1 < (0 : Word).toInt ∧ (0xFFFFFFFFFFFF0000 : Word).toInt < -65535
    ∧ ¬((started 8).port.tokbase.getLsbD 0 = false ∨ 0xFFF8 % 8 ≠ 0 ∨ -1 < (0xFFFFFFFFFFFFFFFF : Word).toInt ∨ (0xFFFFFFFFFFFF0001 : Word).toInt < -65535)
    ∧ ((started 8).onPort fun q => { q with tokbase := 0x600001 }).tokenOpen 0xFFF8 true = false
    ∧ (started 8).tokenOpen 0xFFF8 true = true ∧ (started 8).store.poisoned ((started 8).tokenAddr 0xFFF8 % 2 ^ 44) 8 = false
    ∧ okAnd ((started 8).tokenStep 0 ((started 8).tokenAddr 0xFFF8 % 2 ^ 44) 1) (fun _ _ => true) = true := by decide +kernel

/-- A read and a write across the edge of two entries of HAPT, one of them closed, and inside one. -/
theorem wit_HostEvents_memory : (started 8).store.poison ++ (started 8).store.soft = [] ∧ (started 8).engines.attached = [] ∧ (started 8).store.lock = none ∧ (started 8).links = [] ∧ (started 8).store.bytes.wf = true
    ∧ (∀ i < 2, (started 8).partKey (0x3FFFFFFE + i) false ≠ none ∧ (started 8).partKey (0x3FFFFFFE + i) true ≠ none)
    ∧ (∀ i < 2, (started 8).partKey (0x40000000 + i) false = none ∧ (started 8).partKey (0x40000000 + i) true = none)
    ∧ (started 8).partKey 0x600000 true = none ∧ (started 8).partKey 0x440000 true = some 0 := by decide +kernel

/-- No link is held while none has failed. -/
theorem wit_HostEvents_links (x : Nat) : (started 8).linkHeld 0 x = false := by
  have h : ∀ d < 4, (started 8).trafficHeld 0 d = false := by decide +kernel
  have c : spaceOf x = .chip → x < 0x10008000000 := by
    unfold spaceOf
    split_ifs <;> simp_all
  have d : homeDie x < 4 ∨ spaceOf x = .core := by
    unfold homeDie
    split <;> simp_all <;> omega
  unfold State.linkHeld
  rcases d with d | d
  · split <;> first | exact h _ d | rfl
  · rw [d]

theorem wit_HostEvents_owners : Table.risingFrom 0 (started 8).store.owners ∧ Table.risingFrom 0 (started 8).port.hapt ∧ Table.risingFrom 0 (started 8).port.pba :=
  ⟨⟨by decide, by decide, by decide, by decide, by decide, trivial⟩, ⟨by decide, trivial⟩, trivial⟩

/-- The registers of BAR 0: sizes that are none, the registers of R50, BUSY up and down, RSTREQ with and without its key. -/
theorem wit_HostEvents_config : configSize 0x11 4 = false ∧ configSize 0x10 2 = false
    ∧ (∀ p ∈ [(0x14, 4), (0x10, 8), (0x10FF8, 8), (0x38, 4), (0x1000, 8), (0x100C, 4), (0x2FF8, 8), (0x60, 8), (0x60, 4), (0x68, 8)], configSize p.1 p.2 = true)
    ∧ 0x14 / 8 * 8 = 0x10 ∧ 0x100C / 8 * 8 = 0x1008 := by decide +kernel

theorem wit_HostEvents_busy : (started 8).port.busy = false ∧ ((started 8).onPort fun q => { q with busy := true }).port.busy = true
    ∧ (started 8).port.mbdata.wf = true := by decide +kernel

theorem wit_HostEvents_rstreq : ([0x5A4D000000000001, 0x5A4D000000000002, 0x5A4D000000000003, 0x5A4D000000000000].all fun (x : Word) => x.toNat / 2 ^ 48 = 0x5A4D) = true
    ∧ (0x5A4C000000000001 : Word).toNat / 2 ^ 48 ≠ 0x5A4D ∧ (0x5A4D000000000001 : Word).toNat % 4 = 1 ∧ (0x5A4D000000000003 : Word).toNat % 4 = 3 := by decide +kernel

theorem wit_HostEvents_tokenRead : (started 8).tokenOpen 0 false = true ∧ (started 8).store.poisoned ((started 8).tokenAddr 0 % 2 ^ 44) 8 = false
    ∧ ¬(4 = 8 ∧ 0 % 8 = 0) ∧ ¬(8 = 8 ∧ 4 % 8 = 0) := by decide +kernel

/-- The steps of R27, good and bad, and a package that has halted. -/
theorem wit_HostEvents_startup : (∀ k ∈ [0, 1, 2, 3, 4, 5, 6, 7, 8], (started k).halted = false ∧ ((started k).die 0).boot.step = k ∧ (started k).warm = false
      ∧ ∀ d < 4, ((started k).die d).sensors = [])
    ∧ ((started 5).halt 5 1).halted = true := by decide +kernel

/-- A request of the device that has waited for 1 ms. -/
theorem wit_HostEvents_requests : let s : State := { (started 8).onPort fun q => { q with requests := [⟨1, 0x80000000000, 0x1000, 8, 100⟩] } with cycle := 2400100 }
    s.port.requests = [⟨1, 0x80000000000, 0x1000, 8, 100⟩] ∧ (100 : Nat) + 2400000 ≤ s.cycle ∧ (List.replicate 8 (0 : Byte)).length = 8 := by decide +kernel

/-- A pending vector, with the function masked and not. -/
theorem wit_HostEvents_msix : ∀ b ∈ [false, true], let s := (started 8).onPort fun q => { q with pba := [(2047, true)], fmask := b }
    s.memOk ∧ Table.get false s.port.pba 2047 = true ∧ Table.get false s.port.pba 0 = false ∧ s.port.fmask = b := by
  unfold State.memOk
  decide +kernel

theorem wit_HostEvents_pba : Table.risingFrom 0 ([(2047, true)] : Table Bool) := ⟨by decide, trivial⟩

/-! ### The mailbox -/

/-- A command with its request: offset, bytes, value. -/
def mail (s : State) (code : BitVec 8) (fs : List (Nat × Nat × Nat)) : State :=
  s.onPort fun q => { q with busy := true, mbcmd := code, mbdata := fs.foldl (fun m f => m.writeN f.1 f.2.1 f.2.2) [] }

theorem wit_MailboxEvents_asked : (∀ k ∈ [1, 2, 3, 4, 5, 6, 7], (mail (started 7) (BitVec.ofNat 8 k) []).asked k ∧ ¬(mail (started 8) 0 []).asked k)
    ∧ ((mail (started 7) 0 []).die 0).boot.step < 8 ∧ 8 ≤ ((mail (started 8) 0 []).die 0).boot.step ∧ (mail (started 8) 9 []).port.mbdone = false
    ∧ ((mail (started 8) 1 []).onPort fun q => { q with mbdone := true }).port.mbdone = true := by
  unfold State.asked
  decide +kernel

/-- KEYLOAD into slot 0, a loaded slot, an empty one; what unwrapping a key gives is the part's: none, two equal keys, or two others. -/
theorem wit_MailboxEvents_keyload : (∀ k ∈ [0, 7], let s := mail (started 8) 1 [(0, 1, k)]
      s.asked 1 ∧ s.memOk ∧ s.port.arg 0 1 = k ∧ decide (Table.get KeySlot.empty s.store.keys k = .empty) = decide (k = 7)) := by
  unfold State.memOk State.asked
  decide +kernel

theorem wit_MailboxEvents_unwrapped (x : Option (Nat × Nat)) : x = none ∨ (∃ k1, x = some (k1, k1)) ∨ ∃ k1 k2, x = some (k1, k2) ∧ k1 ≠ k2 := by
  rcases x with _ | ⟨a, b⟩
  · exact .inl rfl
  · by_cases h : a = b
    · exact .inr (.inl ⟨a, by rw [h]⟩)
    · exact .inr (.inr ⟨a, b, rfl, h⟩)

/-- Key slot 5 is loaded; a hart of it lives, or not. -/
def released (buffer : Nat) (k : Nat) (busy : Bool) : State :=
  let s := (started 8).onStore fun st => { st with keys := [(0, .loaded 0 1), (5, .loaded 2 3)] }
  let s := if busy then { s with others := [{ Hart.reset ⟨0, 0, 0, 1⟩ with occ := .running, base := { (Hart.reset ⟨0, 0, 0, 1⟩).base with key := 5 } }] } else s
  mail s 2 [(0, 1, k), (8, 8, buffer), (16, 8, 4096)]

theorem wit_MailboxEvents_release : (∀ p ∈ [(0x440001, 5, false), (0x440000, 0, false), (0x440000, 6, false), (0x440000, 5, true), (0x440000, 5, false)],
      let s := released p.1 p.2.1 p.2.2
      s.asked 2 ∧ s.memOk ∧ s.port.arg 0 1 = p.2.1 ∧ decide (s.physOk (s.port.arg 8 8) 8 = true) = decide (p.1 = 0x440000)
        ∧ decide (s.store.keyLoaded p.2.1 = true) = decide (p.2.1 ≠ 6) ∧ s.keyInUse 5 = p.2.2
        ∧ s.firmwareHeld 0 (s.port.arg 8 8) (s.port.arg 16 8) = false ∧ okAnd (unbindAll s (s.engines.attached.filter fun a => a.slot.toNat = 5)) (fun _ _ => true) = true) := by
  unfold State.memOk State.asked
  decide +kernel

theorem wit_MailboxEvents_keys : Table.risingFrom 0 ([(0, .loaded 0 1), (5, .loaded 2 3)] : Table KeySlot) := ⟨by decide, by decide, trivial⟩

/-- A log of die 0, with room or full, and what waits for it. -/
def logged (full : Bool) (waits : List AuditPending) : State :=
  (started 8).onDie 0 fun d => { d with log := some ⟨10, 24000, 0x440000, if full then 5 else 64, 0x442000, 5, [], 2, waits, false⟩ }

/-- AUDSET with an index, EN or limits out of range; to enable without a log; slot 0; a range. -/
theorem wit_MailboxEvents_audset : (∀ r ∈ [[(0, 2, 1024)], [(3, 1, 2)], [(8, 8, 1), (16, 8, 0x10000)], [(16, 8, 0)], [(16, 8, 2 ^ 44 + 0x10000)]], let s := mail (started 8) 3 r
      s.asked 3 ∧ s.memOk ∧ ¬(s.port.arg 0 2 ≤ 1023 ∧ s.port.arg 3 1 ≤ 1 ∧ s.port.arg 8 8 % 0x10000 = 0 ∧ s.port.arg 16 8 % 0x10000 = 0
        ∧ s.port.arg 8 8 < s.port.arg 16 8 ∧ s.port.arg 16 8 ≤ 2 ^ 44))
    ∧ okAnd ((mail (started 8) 3 [(3, 1, 1)]).mayEnable 0) (fun b _ => !b) = true
    ∧ (∀ k ∈ [0, 5], ∀ en ∈ [0, 1], let s := mail (logged false []) 3 [(0, 2, 0), (2, 1, k), (3, 1, en), (16, 8, 2 ^ 44 - 0x10000)]
        s.asked 3 ∧ s.memOk ∧ s.port.arg 2 1 = k ∧ s.port.arg 3 1 = en ∧ okAnd (s.mayEnable 0) (fun b _ => b) = true ∧ s.port.arg 8 8 < s.port.arg 16 8 ∧ s.port.arg 16 8 ≤ 2 ^ 44) := by
  unfold State.memOk State.asked
  decide +kernel

/-- AUDLOG with a ring out of range, and the first log of a die. -/
theorem wit_MailboxEvents_audlog : (∀ n ∈ [64, 65, 2 ^ 20], let s := mail (started 8) 4 [(4, 4, 1000000), (8, 8, 0x440000), (16, 4, n), (24, 8, 0x442000)]
      s.asked 4 ∧ s.memOk ∧ s.port.arg 0 1 ≤ 3 ∧ s.port.arg 4 4 ≠ 0 ∧ s.port.arg 4 4 ≤ 1000000 ∧ ringLength (s.port.arg 16 4) = decide (n ≠ 65)
        ∧ s.physOk (s.port.arg 8 8) 256 = true ∧ s.physOk (s.port.arg 24 8) 8 = true ∧ (s.die 0).log = none ∧ s.firmwareHeld 0 (s.port.arg 8 8) 256 = false ∧ ((s.closeLog 0).die 0).log = none
        ∧ s.store.keyLoaded 0 = true ∧ spaceOf (s.port.arg 8 8 % 2 ^ 44) = .hbm ∧ s.store.ownerOf (s.port.arg 8 8 % 2 ^ 44) = 0
        ∧ s.store.poisoned (s.port.arg 8 8 % 2 ^ 44) 256 = false ∧ s.engineHit (s.port.arg 8 8 % 2 ^ 44) 256 = []) := by
  unfold State.memOk State.asked
  decide +kernel

/-- The old log has room for its last checkpoint, or not. -/
theorem wit_MailboxEvents_audlogOld : ∀ b ∈ [false, true],
    (let s := mail (logged b []) 4 [(4, 4, 1000000), (8, 8, 0x440000), (16, 4, 64), (24, 8, 0x442000)]
     s.asked 4 ∧ (((s.closeLog 0).die 0).log.any fun l => l.pending.contains .checkpoint) = b ∧ (s.closeLog 0).firmwareHeld 0 (s.port.arg 8 8) 256 = false) := by
  unfold State.asked
  decide +kernel

theorem wit_MailboxEvents_checkpt : (∀ d ∈ [0, 4], (mail (started 8) 5 [(0, 1, d)]).asked 5 ∧ ((mail (started 8) 5 [(0, 1, d)]).die 0).log = none)
    ∧ (∀ b ∈ [false, true], let s := mail (logged b []) 5 []
        s.asked 5 ∧ s.memOk ∧ (s.die 0).log.any (fun l => l.pending = []) = true ∧ okAnd ((s.onLog 0 fun l => { l with pending := [.checkpoint] }).logRoom 0) (fun r _ => r = !b) = true) := by
  unfold State.memOk State.asked
  decide +kernel

theorem wit_MailboxEvents_rest : (∀ k ∈ [(6 : BitVec 8), 7], (mail (started 8) k []).asked k.toNat ∧ (mail (started 8) k []).memOk) := by
  unfold State.memOk State.asked
  decide +kernel

/-- An interval that has ended, or not; a record that waits, with room and without; no log. -/
theorem wit_MailboxEvents_interval : ((started 8).die 0).log = none ∧ (logged false []).cycle < 24000 ∧ 24000 ≤ ({ logged false [] with cycle := 24000 } : State).cycle
    ∧ okAnd ((logged true [.checkpoint]).logRoom 0) (fun b _ => !b) = true
    ∧ (let s := logged false [.checkpoint]
       okAnd (s.logRoom 0) (fun b _ => b) = true ∧ (s.die 0).log.any (fun l => l.pending = [.checkpoint] && 1 ≤ l.seq && l.mark ≤ l.seq && l.ranges % 4096 ≠ 4095) = true) := by
  decide +kernel

end Sys2Proof.Tests
end

