-- ==== Sys2Proof/Tests/WitnessManage.lean ====
section
/-! SUPPORT. For each clause of the statement about management events, states that meet its hypotheses. -/

set_option Elab.async false

namespace Sys2Proof.Tests

open Sys2Proof.Machine

/-! ### Stewards -/

/-- A service of the leaf at 0x43_1010, whose entry was `e`; the ring at 0x44_3000 has 16 entries, the first `n` of which name frames from 0x50_0000 on.
The frame at 0x60_0000 is of slot 5. -/
def serving (e n : Nat) (waiting : Bool) : State :=
  let s := (two 0 0).onStore fun st => { st with
    bytes := (List.range n).foldl (init := st.bytes.writeN 0x431010 8 (e ||| 0x200)) fun m i => m.writeN (0x443000 + 8 * i) 8 (0x500000 + 0x10000 * i)
    owners := st.owners ++ [(0x60, 5)] }
  let s := s.onDie 0 fun d => { d with steward := { d.steward with
    ring := 0x443004, tail := BitVec.ofNat 32 n, services := [⟨0x431010, e, 0x400000, 0x20000, [1], waiting⟩] } }
  s.onPort fun q => { q with hwbase := 1 }

/-- The service that stands first. -/
def theService (e : Nat) (waiting : Bool) : Service := ⟨0x431010, e, 0x400000, 0x20000, [1], waiting⟩

/-- No frame. -/
theorem wit_ManagementEvents_noFrame : ∀ w ∈ [false, true], let s := serving (0x2E + 0x610000) 0 w
    let v := theService (0x2E + 0x610000) w
    (s.die 0).steward.services.find? (fun x => x.waiting = w) = some v ∧ s.store.bytes.readN v.leaf 8 = (v.entry ||| 0x200)
      ∧ s.lockedFor (stewardName 0) v.leaf 8 = false ∧ (s.takeFrame 0).1 = none := by
  decide +kernel

/-- The origin is of another package, or in a frame of another slot; it is free, or a block of host memory. -/
theorem wit_ManagementEvents_frame : (∀ p ∈ [(0x2E + 2 ^ 44, false), (0x2E + 0x600000, true), (0x2E + 0x610000, false), (0x2E + 0x80000000000, true)],
      let s := serving p.1 1 p.2
      let v := theService p.1 p.2
      (s.die 0).steward.services.find? (fun x => x.waiting = p.2) = some v ∧ s.store.bytes.readN v.leaf 8 = (v.entry ||| 0x200)
        ∧ s.lockedFor (stewardName 0) v.leaf 8 = false ∧ (s.takeFrame 0).1 = some 0x500000)
    ∧ originOf ((serving (0x2E + 2 ^ 44) 1 false).takeFrame 0).2 (0x2E + 2 ^ 44) = none
    ∧ ((serving (0x2E + 0x600000) 1 true).takeFrame 0).2.check ⟨0x600000, 0, 2⟩ 0x10000 false = some 6
    ∧ (let s0 := ((serving (0x2E + 0x610000) 1 false).takeFrame 0).2
       originOf s0 (0x2E + 0x610000) = some 0x610000 ∧ s0.check ⟨0x610000, 0, 2⟩ 0x10000 false = none ∧ s0.store.keyLoaded 0 = true ∧ spaceOf 0x610000 ≠ .host ∧ s0.store.bytes.wf = true)
    ∧ (let s0 := ((serving (0x2E + 0x80000000000) 1 true).takeFrame 0).2
       originOf s0 (0x2E + 0x80000000000) = some 0x80000000000 ∧ s0.check ⟨0x80000000000, 0, 2⟩ 0x10000 false = none ∧ s0.store.keyLoaded 0 = true ∧ s0.store.keyLoaded 9 = false ∧ spaceOf 0x80000000000 = .host
         ∧ s0.port.answers = [] ∧ s0.port.requests = []) := by decide +kernel

/-- Software has changed the leaf. -/
theorem wit_ManagementEvents_changed : ∀ w ∈ [false, true], let s := (serving (0x2E + 0x610000) 1 w).onStore fun st => { st with bytes := st.bytes.writeN 0x431010 8 7 }
    let v := theService (0x2E + 0x610000) w
    (s.die 0).steward.services.find? (fun x => x.waiting = w) = some v ∧ s.store.bytes.readN v.leaf 8 ≠ (v.entry ||| 0x200)
      ∧ s.lockedFor (stewardName 0) v.leaf 8 = false ∧ s.store.bytes.wf = true := by decide +kernel

/-- An origin of key slot 0 that holds data. -/
theorem wit_ManagementEvents_copied : let s0 := ((serving (0x2E + 0x440000) 1 false).takeFrame 0).2
    originOf s0 (0x2E + 0x440000) = some 0x440000 ∧ s0.check ⟨0x440000, 0, 2⟩ 0x10000 false = none ∧ s0.store.ownerOf 0x440000 = 0
      ∧ s0.store.bytes.wf = true := by decide +kernel

/-! ### Trace sessions -/

/-- A session of the attached graph whose buffer is the page `va`. -/
def traceSession (en : Bool) (va : BitVec 48) (log2 : BitVec 4) (w : Nat) (rs : List TraceRec) : Trace :=
  { Trace.fresh with en := en, mask := 0xFF, graph := 0x442000, log2 := log2, va := va, wpos := w, staged := rs, gen := 5, ptroot := 0x400000 }

/-- The session in die 0. -/
def tracing (t : Trace) : State := (attached 2 []).onDie 0 fun d => { d with traces := d.traces.set 0 t }

/-- Already on; no graph, a buffer too long, a feature masked. -/
theorem wit_ManagementEvents_traceRefused : ((tracing (traceSession true 1 0 0 [])).trace 0 0).en = true
    ∧ (∀ t ∈ [{ traceSession false 1 0 0 [] with graph := 0x100 }, traceSession false 1 11 0 []], let s := tracing t
        (s.trace 0 0).en = false ∧ (s.attachedAt (s.trace 0 0).graph = none ∨ (s.trace 0 0).log2.toNat > 10))
    ∧ (Config.devFeat &&& ~~~(0x20 : BitVec 6)).getLsbD 5 = false := by decide +kernel

/-- A buffer that is mapped, or not. -/
theorem wit_ManagementEvents_traceMapped : (tracing (traceSession false 1 0 0 [])).attachedAt ((tracing (traceSession false 1 0 0 [])).trace 0 0).graph = some (theGraph 2)
    ∧ (tracing (traceSession false 1 0 0 [])).bufferMapped (traceSession true 1 0 0 []) = true := by decide +kernel

theorem wit_ManagementEvents_traceUnmapped : (tracing (traceSession false 3 0 0 [])).bufferMapped (traceSession true 3 0 0 []) = false := by decide +kernel

/-- A start. -/
theorem wit_ManagementEvents_traceStart : (let s := tracing (traceSession false 1 0 0 [])
       let y := { traceSession true 1 0 0 [] with opening := some s.port.time }
       let z := y.emit y.graph ⟨8, 0, 0, y.gen, 0, s.port.time, 0, 0, false⟩
       let s0 := s.onTrace 0 0 fun _ => z
       s.bufferMapped y = true ∧ BitVec.ofNat 16 (s.gen (theGraph 2)) = 5 ∧ (Config.devFeat &&& ~~~s.port.featmask).getLsbD 5 = true
         ∧ okAnd (traceWords s0 (z.cx 0) z 0 (z.header s.port.time)) (fun _ _ => true) = true) := by decide +kernel

/-- The header's line has a lasting defect. -/
theorem wit_ManagementEvents_traceHeaderRefused : (let s := (tracing (traceSession false 1 0 0 [])).onStore fun st => { st with poison := [0x440000 / 64] }
       let y := { traceSession true 1 0 0 [] with opening := some s.port.time }
       let z := y.emit y.graph ⟨8, 0, 0, y.gen, 0, s.port.time, 0, 0, false⟩
       let s0 := s.onTrace 0 0 fun _ => z
       s.bufferMapped y = true ∧ trapAnd (traceWords s0 (z.cx 0) z 0 (z.header s.port.time)) (fun _ _ _ => true) = true) := by decide +kernel

/-- One staged record, at the first and the last place of the buffer; a buffer that is not mapped; nothing staged. -/
theorem wit_ManagementEvents_traceBatch : ((tracing (traceSession true 1 0 0 [])).trace 0 0).staged = []
    ∧ (∀ p ∈ [((1 : BitVec 48), 0), (1, 2045), (3, 0)], let t := traceSession true p.1 0 p.2 [⟨1, 0, 0, 5, 0, 0, 0, 0, false⟩]
        let s := tracing t
        (s.trace 0 0).en = true ∧ (s.trace 0 0).opening = none ∧ (s.trace 0 0).staged ≠ [] ∧ okAnd (writeRecords s (t.cx 0) t t.wpos t.staged) (fun r s1 =>
          let s2 := s1.onTrace 0 0 fun y => { y with wpos := r.1, staged := y.staged.drop (r.1 - y.wpos) }
          r.2 = decide (p.1 = 3) && (r.2 || (decide (r.1 < t.capacity) = decide (p.2 = 0) && okAnd (writeMem s2 (t.cx 0) (t.at_ 8) 8 r.1 ⟨false, true, 5, false⟩) fun _ _ => true)))
            = true) := by decide +kernel

/-- A session that has stopped, whose header has yet to say so. -/
theorem wit_ManagementEvents_traceClosing : let t := { traceSession false 1 0 0 [] with closing := true, stop := 1 }
    let s := tracing t
    (s.trace 0 0).closing = true ∧ okAnd (writeMem s (t.cx 0) (t.at_ 4) 4 t.stop.toNat .plain) (fun _ s1 =>
      okAnd (writeMem s1 (t.cx 0) (t.at_ 16) 8 t.loss.toNat .plain) fun _ _ => true) = true
    ∧ ((tracing (traceSession true 1 0 0 [])).trace 0 0).closing = false := by decide +kernel

/-! ### Sensors, links, ports -/

/-- Power has not been measured, has been in time, or just before. -/
theorem wit_ManagementEvents_power : (State.reset.die 0).measured = none
    ∧ ∀ c ∈ [240004, 240005], let s : State := { State.reset.onDie 0 fun d => { d with measured := some 5 } with cycle := c }
      (s.die 0).measured = some 5 ∧ decide (5 + 240000 ≤ s.cycle) = decide (c = 240005) := by decide +kernel

/-- The tables of sensors, ports and links of the states below rise. -/
theorem wit_ManagementEvents_rising : Table.risingFrom 0 (State.reset.die 0).sensors ∧ Table.risingFrom 0 (State.reset.die 3).ports ∧ (∀ p : Port, Table.risingFrom 0 [(3, p)])
    ∧ ∀ v ∈ [0, 1, 2], Table.risingFrom 0 (State.reset.setLink 2 v).links :=
  ⟨trivial, trivial, fun _ => ⟨Nat.zero_le _, trivial⟩, fun v h => by
    simp only [List.mem_cons, List.mem_nil_iff, or_false] at h
    rcases h with rfl | rfl | rfl <;> first | exact trivial | exact ⟨Nat.zero_le _, trivial⟩⟩

/-- The threshold of 95 °C after reset, met and not met; the sensor's ALERT stands or does not. -/
theorem wit_ManagementEvents_thermal : (State.reset.die 0).sensors = [] ∧ (State.reset.die 0).thalert.toInt ≤ (760 : BitVec 12).toInt
    ∧ ¬((State.reset.die 0).thalert.toInt ≤ (759 : BitVec 12).toInt) ∧ ((State.reset.die 0).sensor 263).alert = false
    ∧ State.reset.sampleDue 0 263 = false ∧ (State.reset.onDie 0 fun d => { d with boot := ⟨7, false, 0, 0⟩ }).sampleDue 0 263 = true := by decide +kernel

/-- A flit of SEQ 1 with its CRC right or wrong. -/
def flit (good ackv bad : Bool) (body : FlitBody) (kind : BitVec 4 := 4) (vc : BitVec 2 := 3) : Flit :=
  let f : Flit := ⟨kind, vc, 1, 4, ackv, bad, 0, 2, 3, 0, 77, [1, 2, 3], 0, body⟩
  { f with crc := BitVec.ofNat 32 (crc32c f.covered) + if good then 0 else 1 }

/-- A port with two lanes that has received SEQ `k` last. -/
def porting (k : BitVec 12) : State :=
  (two 0 0).onDie 0 fun d => { d with ports := [(3, { Port.fresh with lanes := 2, trained := true, rcvd := some k, seq := 6, unacked := [(3, .request 7 1), (4, .request 8 1), (5, .request 9 1)] })] }

theorem wit_ManagementEvents_flit : (∀ k ∈ [(0 : BitVec 12), 7], let p := ((porting k).die 0).port 3
      p.lanes ≠ 0 ∧ p.retraining = false ∧ p.unacked = [(3, .request 7 1)] ++ (4, .request 8 1) :: [(5, .request 9 1)] ∧ p.waiting = [] ∧ p.held = [] ∧ p.unacked.length < 2048 ∧ decide ((1 : BitVec 12) = p.expects) = decide (k = 0))
    ∧ crc32c (flit false false false .idle).covered ≠ (flit false false false .idle).crc.toNat
    ∧ (∀ b ∈ [false, true], crc32c (flit true false b .nak).covered = (flit true false b .nak).crc.toNat ∧ (flit true false b .nak).malformed = b
        ∧ (flit true false b .nak).dpkg = (porting 0).pkgid ∧ (flit true false b .nak).ackv = false)
    ∧ ((flit true false false .nak).fits = true ∧ ∀ b ∈ [FlitBody.put 0x440000 0 [1, 2], .get 0x440000 0 2], (flit true false false b 1 0).fits = true
        ∧ crc32c (flit true false false b 1 0).covered = (flit true false false b 1 0).crc.toNat ∧ (flit true false false b 1 0).malformed = false)
    ∧ (flit true false false (.sig 0x440008 1 0) 3 2).fits = true := by
  decide +kernel

/-- The accesses of a put, a get and a token step from another package, performed and refused. -/
theorem wit_ManagementEvents_remote : let s1 := (porting 0).onScalePort 0 3 fun p => { p with rcvd := some 1 }
    let f := flit true false false .idle
    okAnd (remoteWrite s1 (remoteCx 0 3 0 f) 0x440000 0 [1, 2]) (fun r _ => r = none) = true
    ∧ okAnd (remoteWrite s1 (remoteCx 0 3 5 f) 0x440000 0 [1, 2]) (fun r _ => r = some (6, 0)) = true
    ∧ okAnd (remoteRead s1 (remoteCx 0 3 0 f) 0x440000 0 2) (fun r _ => r.2 = none) = true
    ∧ okAnd (remoteRead s1 (remoteCx 0 3 5 f) 0x440000 0 2) (fun r _ => r.2 = some (6, 0)) = true
    ∧ okAnd (physTokens s1 (remoteCx 0 3 0 f) 0 0x440008 1) (fun _ _ => true) = true := by decide +kernel

/-- The lock of R361 holds the line of a put. -/
theorem wit_ManagementEvents_flitHeld : let s := ((porting 0).onCur fun x => { x with uid := 5, links := [⟨0, 0x10000, 0x440000, true⟩] }).onStore fun st =>
      { st with lock := some (20, [0x440000 / 64], 0) }
    let s1 := s.onScalePort 0 3 fun p => { p with rcvd := some 1 }
    stalls (deliverFlit s1 0 3 (flit true false false (.put 0x440000 0 [1, 2]) 1 0)) = true := by decide +kernel

/-- A port before and after 8 replays, and while it trains again. -/
theorem wit_ManagementEvents_ports : ∀ p ∈ [(7, false), (8, false), (0, true)], let s := (porting 0).onScalePort 0 3 fun q => { q with again := p.1, retraining := p.2 }
    ((s.die 0).port 3).again = p.1 ∧ ((s.die 0).port 3).retraining = p.2 ∧ ((s.die 0).port 3).lanes = 2
      ∧ ((s.die 0).port 3).evt = false := by
  decide +kernel

/-- The link of dies 0 and 3 in its states, worn on one side; after its fall another die joins them, or none. -/
theorem wit_ManagementEvents_links : (∀ v ∈ [0, 1, 2], let s := (State.reset.setLink 2 v)
      s.linkState 2 = v ∧ s.engines.runs = [] ∧ ¬8 ≤ ((s.die 0).port 39).again
        ∧ 8 ≤ (((s.onScalePort 0 39 fun p => { p with again := 8 }).die 0).port 39).again)
    ∧ (let after (s : State) : State := ((s.onLinkEnds 2 fun p => { p with lanes := 0, retraining := false }).dieLinkDown 0 3).dieLinkDown 3 0
       (after (State.reset.setLink 2 1)).stranded 2 = some 2
         ∧ (after ([0, 1, 2, 3].foldl (init := State.reset.setLink 2 1) fun s d => s.onDie d fun x => { x with up := 0xF })).stranded 2 = none)
    ∧ (let s := ((State.reset.setLink 2 2).onDie 0 fun d => { d with up := 0x6 }).onDie 3 fun d => { d with up := 0x6 }
       s.linkState 2 = 2 ∧ s.joined 0 3 = false ∧ s.joined 3 0 = false) := by
  decide +kernel

/-- An entry towards package 1, and a queue without one. -/
theorem wit_ManagementEvents_unreachable : 1 ≠ (two 0 0).pkgid.toNat ∧ ((two 0 0).hart ⟨0, 0, 0, 0⟩).qs.xq = []
    ∧ (let s := (two 0 0).onCur fun x => { x with qs := { x.qs with xq := [⟨.put, 0x100000000000, 0x10000, 8, .user, 0, 0, .zero, none, none⟩] } }
       (s.hart ⟨0, 0, 0, 0⟩).qs.xq.all (fun e => e.remote.toNat / 2 ^ 44 = 1 && (s.hart ⟨0, 0, 0, 0⟩).qs.ready e.after) = true
         ∧ s.engines.runs = [] ∧ okAnd (s.packageLost 1) (fun _ s1 => s1.cur.qs.xq ≠ []) = true) := by decide +kernel

/-- A launch that package 1 takes part in. -/
def farLaunch : Launch := { launch2 [0] with plan := [(0, [0]), (5, [1])], prepare := [5], acks := [0] }

theorem wit_ManagementEvents_launchLost : let s := launching farLaunch (lrun .placing) ([(256 + 2, 1, 3), (256 + 4, 2, 5)] ++ pods16) 299999
    s.engines.runs = [lrun .placing] ∧ s.launchOf 9 = some farLaunch ∧ farEngine 1 ∈ farLaunch.plan.map (·.1) ∧ farLaunch.commits = [] ∧ farLaunch.aborts = []
      ∧ s.cycle < farLaunch.deadline ∧ s.attachedAt 0x442000 = some (theGraph 2) ∧ s.graphLocked (theGraph 2) = false ∧ s.store.bytes.wf = true
      ∧ (lrun .placing).gen.toNat = s.gen (theGraph 2) ∧ s.nodeState (theGraph 2) 0 = 3 := by decide +kernel

theorem wit_ManagementEvents_launchOpen : (launching farLaunch (lrun .placing) ([(256 + 2, 1, 3), (256 + 4, 2, 5)] ++ pods16) 299999).graphOpen (theGraph 2) :=
  graphOpen_of (by decide) rfl rfl rfl rfl

end Sys2Proof.Tests
end

