-- ==== Sys2Proof/Tests/WitnessScalar.lean ====
section
/-! SUPPORT. For each statement about scalar instructions that has hypotheses, states and operands that meet them, clause by
clause, where possible at the edge of their range. -/

set_option Elab.async false

namespace Sys2Proof.Tests

open Sys2Proof.Machine

/-! ### Steps -/

/-- The hart at 0x1_0000 with a word there, about to issue. -/
def issuing (w : Nat) : State := placeScalar State.reset w

/-- The same word under a handler in slot 7 that has issued 255 instructions. -/
def handling (w : Nat) : State :=
  (placeScalar { State.reset with cur := Hart.reset ⟨0, 0, 0, 7⟩ } w).onCur fun x => { x with
    handler := some ⟨⟨16, true, false, ⟨0, 0, 0, 1⟩, 3, false, 0, 0, Vector.replicate 6 0, 0, 0, 0⟩, 255, false, 0⟩ }

/-- A word fetched at the head of the agenda in its turn, which decodes to an instruction that comes through in a state of which `P`
is true. -/
theorem turn_of {s : State} {h : HartId} {w : Nat} {i : Instr} {P : State → Bool} {h0 : Prop} (h1 : h0) (d : decodeScalar w = .ok i)
    (k : okAnd (({ s with agenda := [] } : State).focus h).fetch (fun x s1 => x == w && nextAnd (exec i s1) P) = true) :
    h0 ∧ ∃ s1 t, (({ s with agenda := [] } : State).focus h).fetch = .ok w s1 ∧ decodeScalar w = .ok i ∧ exec i s1 = .next t ∧ P t = true := by
  obtain ⟨x, s1, e, q⟩ := okAnd_iff k
  rw [Bool.and_eq_true, beq_iff_eq] at q
  obtain ⟨rfl, q⟩ := q
  obtain ⟨t, e2, q⟩ := nextAnd_iff q
  exact ⟨h1, s1, t, e, d, e2, q⟩

/-- ADDI issues; a load of host memory stalls, and another slot of the core does not run. -/
theorem wit_StepRunsDecoded_program : (let s := issuing 0x08A3FFF4
    (s.agenda = [.issue s.cur.id] ∧ s.halted = false ∧ ({ s with agenda := [] } : State).turnOf s.cur.id
      ∧ (({ s with agenda := [] } : State).focus s.cur.id).atProgram)
    ∧ ∃ s1 t, (({ s with agenda := [] } : State).focus s.cur.id).fetch = .ok 0x08A3FFF4 s1 ∧ decodeScalar 0x08A3FFF4 = .ok (.addi 5 3 0xFFF4)
      ∧ exec (.addi 5 3 0xFFF4) s1 = .next t ∧ (!t.passedOver ⟨0, 0, 0, 0⟩) = true) := by
  refine turn_of ?_ (by decide +kernel) (by decide +kernel)
  unfold State.turnOf State.atProgram State.atBoundaryFree
  decide +kernel

/-- A hart that loads from host memory. -/
def awaiting : State :=
  let s := (issuing 0x5461C000).onCur fun x => { x with base := { x.base with g := regs fun i => if i = 1 then 0x20000 else 0 } }
  s.onStore fun st => { st with bytes := Mem.writeN st.bytes 0x431010 8 (0x2F + 0x80000000000) }

theorem wit_StepRunsDecoded_stalled : (let s : State := { awaiting with port := { awaiting.port with hwbase := 1 } }
    (s.agenda = [.issue s.cur.id] ∧ s.halted = false ∧ ({ s with agenda := [] } : State).turnOf s.cur.id
      ∧ (({ s with agenda := [] } : State).focus s.cur.id).atProgram)
    ∧ ∃ s1 t, (({ s with agenda := [] } : State).focus s.cur.id).fetch = .ok 0x5461C000 s1 ∧ decodeScalar 0x5461C000 = .ok (.ld 3 1 3 0 0 0)
      ∧ exec (.ld 3 1 3 0 0 0) s1 = .next t
      ∧ (t.passedOver ⟨0, 0, 0, 0⟩ && (List.range 7).all (fun n => n = 0 || decide ((t.hart ⟨0, 0, 0, n⟩).occ ≠ .running))
        && decide ((t.core ⟨0, 0, 0⟩).chose = (s.core ⟨0, 0, 0⟩).chose)) = true) := by
  refine turn_of ?_ (by decide +kernel) (by decide +kernel)
  unfold State.turnOf State.atProgram State.atBoundaryFree
  decide +kernel

theorem wit_StepRunsDecoded_handler : (let s := handling 0x08A3FFF4
    (s.agenda = [.issue (CoreId.messageSlot ⟨0, 0, 0⟩)] ∧ s.halted = false ∧ ({ s with agenda := [] } : State).coreHeld ⟨0, 0, 0⟩ = false
      ∧ (({ s with agenda := [] } : State).focus ⟨0, 0, 0, 7⟩).atHandler)
    ∧ ∃ s1 t, (({ s with agenda := [] } : State).focus ⟨0, 0, 0, 7⟩).fetch = .ok 0x08A3FFF4 s1 ∧ decodeScalar 0x08A3FFF4 = .ok (.addi 5 3 0xFFF4)
      ∧ exec (.addi 5 3 0xFFF4) s1 = .next t ∧ (!(t.onCur Hart.countIssued).passedOver ⟨0, 0, 0, 7⟩) = true) := by
  refine turn_of ⟨by decide +kernel, by decide +kernel, by decide +kernel, ?_, _, rfl, by decide +kernel, by decide +kernel⟩
    (by decide +kernel) (by decide +kernel)
  unfold State.atBoundaryFree
  decide +kernel

/-- A message for handler 1 waits at the core, or its handler is in slot 7 since cycle 0; the agenda names an event of slot 7. -/
def slotSevenOf (i : Instr) (under : Bool) (thr : BitVec 4) : State :=
  let m : Message := ⟨1, true, false, ⟨0, 0, 0, 1⟩, 3, false, 0, 0x10000, Vector.replicate 6 0x10008, 0x400000, 0, 0⟩
  let s := placeScalar { State.reset with cur := Hart.reset ⟨0, 0, 0, 7⟩ } 0
  let s := if under then s.onCur fun x => { x with handler := some ⟨m, 0, false, 0⟩ } else { s with cur := Hart.reset ⟨0, 0, 0, 7⟩ }
  { s with cores := [⟨⟨0, 0, 0⟩, [], if under then [] else [m], 6, [], [], none⟩], agenda := [.event i] }.onCluster 0 0 fun c => { c with force := thr.toNat }

theorem wit_StepRunsDecoded_slotSeven : (∀ i ∈ [(Instr.handlerStart ⟨0, 0, 0⟩, false), (.rd ⟨0, 0, 0⟩, true)], slotSeven i.1 = some ⟨0, 0, 0⟩
      ∧ (slotSevenOf i.1 i.2 0).halted = false ∧ (({ slotSevenOf i.1 i.2 0 with agenda := [] } : State).prune ⟨0, 0, 0⟩).coreHeld ⟨0, 0, 0⟩ = true)
    ∧ (let u := ({ slotSevenOf (.handlerStart ⟨0, 0, 0⟩) false 15 with agenda := [] } : State).prune ⟨0, 0, 0⟩
       u.coreHeld ⟨0, 0, 0⟩ = false ∧ (u.hart ⟨0, 0, 0, 7⟩).handler = none ∧ u.startsHandler ⟨0, 0, 0⟩ = true)
    ∧ (let u := ({ slotSevenOf (.rd ⟨0, 0, 0⟩) true 15 with agenda := [] } : State).prune ⟨0, 0, 0⟩
       u.coreHeld ⟨0, 0, 0⟩ = false ∧ (u.hart ⟨0, 0, 0, 7⟩).handler.any (fun h => !h.pending && h.ready ≤ u.cycle && builtin ⟨0, 0, 0⟩ h.msg.hnd.toNat = some (.rd ⟨0, 0, 0⟩)) = true
       ∧ nextAnd (exec (.rd ⟨0, 0, 0⟩) (u.focus ⟨0, 0, 0, 7⟩)) (fun t => !t.passedOver ⟨0, 0, 0, 7⟩) = true
       ∧ (u.focus ⟨0, 0, 0, 7⟩).atBoundaryFree) := by
  unfold State.atBoundaryFree
  decide +kernel

/-- A strip whose block's convoy is VADD.I32 v1, v2, 5 and a VNOP. -/
def convoying : State := { strip 4 4 [0x0118_4002_1000_0000, 0xFD00_0000_0000_0000] 0 0 0 0 with agenda := [.convoy ⟨0, 0, 0, 0⟩] }

theorem wit_StepRunsDecoded_convoy : let s := convoying; let u := (({ s with agenda := [] } : State).focus ⟨0, 0, 0, 0⟩)
    s.agenda = [.convoy ⟨0, 0, 0, 0⟩] ∧ s.halted = false ∧ u.convoyReady = true
    ∧ ∃ b bs i, u.cur.vec.queue = b :: bs ∧ b.words ≠ [] ∧ b.nextInstr = some i := by
  exact ⟨rfl, by decide +kernel, by decide +kernel, _, _, _, rfl, by decide +kernel, rfl⟩

/-- An event of a halted package that runs no hart, one that does, and a request of the host alone or behind another. -/
theorem wit_StepRunsDecoded_event :
    ((({ State.reset.halt 1 0 with agenda := [.event .coldStart] } : State).halted = true
      ∧ runsHart .coldStart = false) ∧ runsHart (.vwaitvWake ⟨0, 0, 0, 0⟩) = true)
    ∧ (hostRequest (.hostMemoryRead 0 8) = some (.read 0 8) ∧ State.reset.port.held = []
      ∧ (State.reset.holdHost (.read 0 8)).port.held ≠ []) := by decide +kernel

/-- Words that do not decode: 0, an unassigned opcode, the extension space. -/
theorem wit_WordsDecidedInOrder_words : ∀ w ∈ [(0, Reject.allZeros), (0x9C000000, .unassigned), (0xE0000000, .extension)],
    (issuing w.1).atProgram ∧ okAnd (issuing w.1).fetch (fun x _ => x == w.1) = true ∧ decodeScalar w.1 = .error w.2 := by
  unfold State.atProgram State.atBoundaryFree
  decide +kernel

/-- A word with an illegal field, one barred at TDEPTH 1, and TLBI at user level. -/
theorem wit_WordsDecidedInOrder_checks : encode (.fence 1 0) = .scalar 0x74000100 ∧ (Instr.fence 1 0).legal = false
    ∧ ((issuing 0).onCur fun x => { x with trap := { x.trap with depth := 1 } }).cur.bars .texit = true
    ∧ (∃ w, encode .texit = .scalar w)
    ∧ (issuing 0).cur.base.level = .user ∧ (Instr.tlbi 1 2 0).legal = true ∧ (issuing 0).cur.hasFeatures (.tlbi 1 2 0) = true
    ∧ (issuing 0).cur.bars (.tlbi 1 2 0) = false ∧ (∃ w, encode (.tlbi 1 2 0) = .scalar w)
    ∧ ((issuing 0).onCur fun x => { x with base := { x.base with feat := 0 } }).cur.hasFeatures (.fadd 1 2 3 0 1) = false
    ∧ (∃ w, encode (.fadd 1 2 3 0 1) = .scalar w) := by
  refine ⟨by decide +kernel, by decide +kernel, by decide +kernel, ⟨_, rfl⟩, by decide +kernel, by decide +kernel, by decide +kernel,
    by decide +kernel, ⟨_, rfl⟩, by decide +kernel, ⟨_, rfl⟩⟩

/-! ### Integer instructions -/

/-- A user's hart with g1, g2 and g3. -/
def three (a b c : Word) : State := hart [] fun i => if i = 1 then a else if i = 2 then b else if i = 3 then c else 0

theorem wit_DivisionResults : (three 5 0 0).g 2 = 0 ∧ (three 5 (-1) 0).g 2 ≠ 0
    ∧ ((three 0x8000000000000000 (-1) 0).g 1).toInt = -2 ^ 63 ∧ ((three 0x8000000000000000 (-1) 0).g 2).toInt = -1
    ∧ ((three (-7) 2 0).g 1 = -7 ∧ (three (-7) 2 0).g 2 = 2) ∧ (three 0x8000000000000000 65 0).g 2 = 65
    ∧ (three 8 0 0).g 1 = 8 ∧ (three 0x12348001 0 0).g 1 = 0x12348001 := by decide +kernel

theorem wit_BranchesAndJumps : ((three 0x10000 0 0).g 1 + (BitVec.signExtend 64 (0xFFFC : BitVec 16))) &&& 3 = 0
    ∧ ((three 0x10000 0 0).g 1 + (BitVec.signExtend 64 (0xFFFF : BitVec 16))) &&& 3 ≠ 0 := by decide +kernel

/-! ### Loads, stores, atomics -/

/-- A page of host memory at 0x2_0000, nothing at 0x3_0000, a page without W at 0x4_0000, one of another slot's frame at 0x5_0000,
one that is not present at 0x6_0000, and one of a free frame at 0x7_0000. -/
def pages : List (Nat × Nat) :=
  [(2, 0x2F + 0x80000000000), (4, 0x27 + 0x440000), (5, 0x2F + 0x470000), (6, 0x12E + 0x450000), (7, 0x2F + 0x460000)]

/-- A user's hart with these pages and g1, g2. -/
def paged (a b : Word) : State :=
  (hart pages fun i => if i = 1 then a else if i = 2 then b else 0).onStore fun st => { st with owners := Table.set freeOwner st.owners 0x47 1 }

theorem wit_LoadResults : (paged 0x1FFF8 0).memOk ∧ (paged 0x1FFF8 0).admits (.ld 3 1 3 0 0 0) ∧ (paged 0x1FFF8 0).admits (.ldu 0 1 3 1 1 0)
    ∧ ∃ p s1, (paged 0x1FFF8 0).loadsAt ((paged 0x1FFF8 0).addr 1 0 3) 8 p s1 := by
  refine ⟨by unfold State.memOk; decide +kernel, by unfold State.admits; decide +kernel, by unfold State.admits; decide +kernel, ?_⟩
  exact loadsAt_of (by decide +kernel) (by decide +kernel)

theorem wit_StoreResults : (paged 0x10000 5).memOk ∧ (paged 0x10000 5).admits (.st 2 1 0 0 0 0x3FF)
    ∧ ∃ p s1, (paged 0x10001 5).storesAt ((paged 0x10001 5).addr 1 0x3FF 0) 1 p s1 := by
  refine ⟨by unfold State.memOk; decide +kernel, by unfold State.admits; decide +kernel, ?_⟩
  exact storesAt_of (by decide +kernel) (by decide +kernel)

theorem wit_AtomicResults : (paged 0x1FFFC 5).memOk ∧ (∀ q ∈ [0, 8], (paged 0x1FFFC 5).admits (.amo 3 1 2 0 0 0 q))
    ∧ (paged 0x1FFFC 5).admits (.cas 3 1 2 0 0 0) ∧ (∀ c ∈ [false, true], ∃ p s1, (paged 0x1FFFC 5).updatesAt ((paged 0x1FFFC 5).g 1) 4 c p s1)
    ∧ (paged 0x1FFF8 5).admits (.amo 3 1 2 3 5 1 0) ∧ (paged 0x1FFF8 5).admits (.cas 3 1 2 0 0 1)
    ∧ (∀ c ∈ [false, true], ∃ p s1, (paged 0x1FFF8 5).updatesAt ((paged 0x1FFF8 5).g 1) 8 c p s1) := by
  refine ⟨by unfold State.memOk; decide +kernel, by unfold State.admits; decide +kernel, by unfold State.admits; decide +kernel,
    ?_, by unfold State.admits; decide +kernel, by unfold State.admits; decide +kernel, ?_⟩
  · intro c hc
    rcases List.mem_pair.mp hc with rfl | rfl
    · exact updatesAt_of (by decide +kernel) (by decide +kernel)
    · exact updatesAt_of (by decide +kernel) (by decide +kernel)
  · intro c hc
    rcases List.mem_pair.mp hc with rfl | rfl
    · exact updatesAt_of (by decide +kernel) (by decide +kernel)
    · exact updatesAt_of (by decide +kernel) (by decide +kernel)

/-- The same with a defect in a line of the page at 0x1_0000, and with key slot 0 loaded or not. -/
def wornPage (va : Word) (loaded : Bool) : State :=
  (paged va 0).onStore fun st => { st with
    poison := [0x11000], keys := if loaded then Table.set KeySlot.empty st.keys 0 (.loaded 1 2) else Table.set KeySlot.empty st.keys 0 .empty }

/-- Each check fails for each kind of access: Misaligned; no leaf, no W; host memory for an atomic; another slot's frame; a defect; host memory
under a slot that is not loaded, and behind a closed port. -/
theorem wit_AccessFaults : (∀ i ∈ [Instr.ld 3 1 1 0 0 0, .ldu 3 1 1 0 0 0, .st 3 1 1 0 0 0, .amo 3 1 2 0 0 0 0, .cas 3 1 2 0 0 1],
      (paged 0x10001 0).admits i)
    ∧ ((paged 0x10001 0).addr 1 0 1).toNat % 2 ≠ 0 ∧ ((paged 0x10004 0).g 1).toNat % amoBytes 1 ≠ 0
    ∧ ([(0x30000, Kind.read), (0x40000, .write), (0x40000, .readWrite)].all fun (q : Word × Kind) =>
        trapAnd (resolve (paged q.1 0) (paged q.1 0).cur.cx q.2 q.1) fun _ _ _ => true) = true
    ∧ (okAnd (resolve (paged 0x20000 0) (paged 0x20000 0).cur.cx .readWrite 0x20000) fun p _ => decide (spaceOf p.loc = .host)) = true
    ∧ ([(Kind.read, false), (.write, true), (.readWrite, true)].all fun (q : Kind × Bool) =>
        (okAnd (resolve (paged 0x50000 0) (paged 0x50000 0).cur.cx q.1 0x50000) fun p s1 =>
          decide (spaceOf p.loc ≠ .host ∧ s1.store.guard p.key p.loc q.2 = .refused))
        && (okAnd (resolve (wornPage 0x10000 true) (wornPage 0x10000 true).cur.cx q.1 0x10000) fun p s1 =>
          decide (spaceOf p.loc = .hbm ∧ s1.store.guard p.key p.loc q.2 ≠ .refused ∧ s1.store.ownerOf p.loc ≠ freeOwner
            ∧ p.loc / 64 ∈ s1.store.poison ++ s1.store.soft))) = true
    ∧ (okAnd (resolve (wornPage 0x20000 false) (wornPage 0x20000 false).cur.cx .write 0x20000) fun p s1 =>
        decide (spaceOf p.loc = .host ∧ s1.store.keyLoaded p.key = false)) = true
    ∧ ([Kind.read, .write].all fun (k : Kind) => okAnd (resolve (wornPage 0x20000 true) (wornPage 0x20000 true).cur.cx k 0x20000) fun p s1 =>
        decide (spaceOf p.loc = .host ∧ s1.store.keyLoaded p.key = true ∧ s1.port.hwbase.getLsbD 0 = false)) = true := by
  unfold State.admits
  decide +kernel

theorem wit_AccessFaults_leaf : ∃ l e lev, walk (paged 0x1FFF8 0) (paged 0x1FFF8 0).cur.base.ptroot 0x1FFF8 = .leaf l e lev
    ∧ ∃ p s1, (paged 0x1FFF8 0).storesAt ((paged 0x1FFF8 0).addr 1 0 3) 8 p s1 ∧ leafLoc e lev 0x1FFF8 = p.loc ∧ p.win = 2
      ∧ l + 8 ≤ p.loc ∧ bitsOf e 55 44 = (paged 0x1FFF8 0).pkgid.toNat := by
  refine ⟨0x431008, 0x44003F, 0, by decide +kernel, ?_⟩
  obtain ⟨p, s1, h, k⟩ := okAnd_iff (r := resolve (paged 0x1FFF8 0) (paged 0x1FFF8 0).cur.cx .write ((paged 0x1FFF8 0).addr 1 0 3))
    (P := fun p s1 => decide ((s1.check p 8 true = none ∧ spaceOf p.loc ≠ .host
        ∧ s1.writeLocked (paged 0x1FFF8 0).cur.cx ((paged 0x1FFF8 0).addr 1 0 3) p = false
        ∧ (s1.setAD (paged 0x1FFF8 0).cur.base.ptroot ((paged 0x1FFF8 0).addr 1 0 3) p true).syncHit p.loc 8 = []
        ∧ (s1.setAD (paged 0x1FFF8 0).cur.base.ptroot ((paged 0x1FFF8 0).addr 1 0 3) p true).wild p 8 false = [])
      ∧ leafLoc 0x44003F 0 0x1FFF8 = p.loc ∧ p.win = 2 ∧ 0x431008 + 8 ≤ p.loc ∧ bitsOf 0x44003F 55 44 = (paged 0x1FFF8 0).pkgid.toNat)) (by decide +kernel)
  have k := of_decide_eq_true k
  exact ⟨p, s1, ⟨by decide +kernel, h, k.1⟩, k.2⟩

/-- The same hart with the host's answer to its load, or with the host's failure. -/
def answered (v : Option Nat) : State :=
  { paged 0x20000 7 with port := { (paged 0x20000 7).port with
    hwbase := 1, answers := [⟨(paged 0x20000 7).cur.uid * 4, 0x80000000000, 8, v⟩] } }

theorem wit_HostMemoryAccesses : (answered none).admits (.ld 3 1 3 0 0 0) ∧ (answered none).admits (.ldu 3 1 3 0 0 0)
    ∧ (answered none).admits (.st 2 1 3 0 0 0)
    ∧ (∃ p s1, (answered none).loadsHost ((answered none).addr 1 0 3) 8 p s1)
    ∧ (okAnd (resolve (answered (some 7)) (answered (some 7)).cur.cx .read 0x20000) fun p s1 =>
        (s1.port.answers.find? fun x => x.who = (answered none).cur.uid * 4 && x.loc = p.loc && x.n = 8).any (·.value = some 7)) = true
    ∧ (okAnd (resolve (paged 0x20000 7) (paged 0x20000 7).cur.cx .read 0x20000) fun _ s1 => s1.port.requests = [] && s1.port.answers = []) = true
    ∧ (okAnd (resolve (answered none) (answered none).cur.cx .write 0x20000) fun p s1 =>
        decide (s1.check p 8 true = none ∧ spaceOf p.loc = .host ∧ s1.writeLocked (answered none).cur.cx 0x20000 p = false)) = true := by
  refine ⟨by unfold State.admits; decide +kernel, by unfold State.admits; decide +kernel, by unfold State.admits; decide +kernel,
    loadsHost_of (by decide +kernel) (by decide +kernel), by decide +kernel, by decide +kernel, by decide +kernel⟩

/-! ### Floating point -/

theorem wit_FloatResults : (∀ q ∈ fpRows, ∀ r ∈ [0, 7], ∀ p ∈ [0, 1], (three 1 2 3).admits (q.1 3 1 2 r p))
    ∧ (three 1 2 3).admits (.fsqrt 3 1 3 1) ∧ (three 1 2 3).admits (.fma 3 1 2 3 7 0) := by
  unfold State.admits
  decide +kernel

/-- A signalling NaN beside -0, +0 beside -0, and two quiet NaNs. -/
theorem wit_FloatComparisons : (three 0 0 0).admits (.fmin 3 1 2 0) ∧ (three 0 0 0).admits (.fmax 3 1 2 1)
    ∧ (∀ c ∈ [0, 1, 2, 3], (three 0 0 0).admits (.fcmp 3 1 2 1 c)) ∧ (three 0x7F800001 0x80000000 0).fpVal (fpFmt 0) 1 = .nan true
    ∧ ((three 0x7F800001 0x80000000 0).fpVal (fpFmt 0) 2).isNan = false
    ∧ ((three 0x7FC00000 0xFFFFFFFF 0).fpVal (fpFmt 0) 1).isNan = true ∧ ((three 0x7FC00000 0xFFFFFFFF 0).fpVal (fpFmt 0) 2).isNan = true
    ∧ (let x := (three 0x8000000000000000 0 0).fpVal (fpFmt 1) 1; let y := (three 0x8000000000000000 0 0).fpVal (fpFmt 1) 2
        cmpV x y = 0 ∧ x.isNeg = true ∧ y.isNeg = false)
    ∧ cmpV ((three 1 2 0).fpVal (fpFmt 1) 1) ((three 1 2 0).fpVal (fpFmt 1) 2) < 0 := by
  unfold State.admits
  decide +kernel

theorem wit_FclassOneBit : (three 0 0 0).admits (.fclass 3 1 0) ∧ (three 0 0 0).admits (.fclass 3 1 1) := by
  unfold State.admits
  decide +kernel

theorem wit_FcvtResults : Fmt.ofCode 10 = some .f32 ∧ Fmt.ofCode 2 = some .i32 ∧ (three 0 0 0).admits (.fcvt 3 1 0 10 2 1)
    ∧ Fmt.ofCode 3 = some .i64 ∧ Fmt.ofCode 11 = some .f64 ∧ (three 0 0 0).admits (.fcvt 3 1 1 3 11 7) := by
  unfold State.admits
  decide +kernel

theorem wit_E8M0Values : (0 < 256 ∧ 0 ≤ 254) ∧ (254 < 256 ∧ 254 ≤ 254) ∧ (255 < 256 ∧ 255 = 255) := by decide

theorem wit_OwnEncodingIsExact : Fmt.isInt .e2m1 = false ∧ Fmt.e2m1 ≠ .e8m0 ∧ 7 < 2 ^ Fmt.width .e2m1
    ∧ valOf .e2m1 7 = .fin false 3 1 ∧ valOf .f64 0 = .fin false 0 (-1074) := by decide +kernel

theorem wit_RoundsTowardsZero : Fmt.isInt .f64 = false ∧ Fmt.f64 ≠ .e8m0 ∧ 1 ≠ 0 := by decide

/-! ### Traps -/

/-- The user's hart at TDEPTH `d`, with EMUV and STVEC set. -/
def atDepth (d : Nat) (emuv : Word) : State :=
  (three 1 2 3).onCur fun x => { x with trap := { x.trap with depth := d, emuv := emuv, stvec := 0x8000 } }

/-- A management core's slot at TDEPTH `d`. -/
def managed (d : Nat) : State := { three 1 2 3 with cur := { Hart.reset ⟨0, 16, 0, 0⟩ with trap := { (Hart.reset ⟨0, 16, 0, 0⟩).trap with depth := d } } }

theorem wit_TrapEntry : (∀ d ∈ [0, 1, 2], (atDepth d 0).memOk ∧ (managed d).memOk) ∧ (atDepth 0 0).cur.handler.isSome = false
    ∧ (∀ d ∈ [0, 1, 2], (atDepth d 0).frameHeld = false ∧ (managed d).frameHeld = false)
    ∧ (let y := { Hart.reset ⟨0, 0, 0, 1⟩ with uid := 5, occ := .running, links := [⟨0, 0x10000, contextLoc ⟨0, 0, 0, 0⟩, true⟩] }
       let s := { (atDepth 0 0).onStore fun st => { st with lock := some (20, [contextLoc ⟨0, 0, 0, 0⟩ / 64], 0) } with others := [y] }
       s.frameHeld = true ∧ s.cur.trapRoute 0x05 = .enter .supervisor 0x05)
    ∧ ((managed 0).cur.id.mgmt = true ∧ (managed 0).cur.trap.depth < 2) ∧ ((managed 1).cur.trap.depth < 2) ∧ ((managed 2).cur.trap.depth = 2)
    ∧ ((atDepth 0 0x9000).cur.id.mgmt = false ∧ (atDepth 0 0x9000).cur.base.level = .user ∧ (atDepth 0 0x9000).cur.trap.depth = 0
        ∧ (atDepth 0 0x9000).cur.trap.emuv ≠ 0)
    ∧ (atDepth 1 0).cur.trap.depth = 1 ∧ ¬((atDepth 0 0).cur.trap.emuv ≠ 0)
    ∧ ((atDepth 0 0).onCur fun x => { x with base := { x.base with level := .supervisor } }).cur.base.level = .supervisor
    ∧ (handling 0).cur.id.slot = 7 ∧ (handling 0).cur.handler.isSome = true := by
  unfold State.memOk
  decide +kernel

theorem wit_TrapThenReturn : (∀ d ∈ [0, 1], (atDepth d 0).memOk ∧ (atDepth d 0).cur.trap.depth < 2 ∧ (atDepth d 0).cur.handler = none)
    ∧ (atDepth 0 0).cur.trapRoute 0x05 = .enter .supervisor 0x05 ∧ (atDepth 0 0x9000).cur.trapRoute 0x02 = .enter .user 0x02
    ∧ (atDepth 1 0).cur.trapRoute 0x02 = .enter .supervisor 0x0D ∧ (managed 1).cur.trapRoute 0x0A = .enter .management 0x0A := by
  unfold State.memOk
  decide +kernel

/-- A management slot at TDEPTH 1 in whose frame a vector trap stands, with a strip; RPLY as said. -/
def replying (rply : Bool) : State :=
  let x := (strip 4 4 [] 0 0 0 0).cur
  { managed 1 with cur := { x with
    id := ⟨0, 16, 0, 0⟩
    trap := { x.trap with depth := 1, frames := Vector.replicate 2 ⟨0x05, 0x10000, 0, 0x10004, 2, true, rply⟩ } } }

theorem wit_TrapInstructions : (atDepth 0 0).cur.trap.depth = 0 ∧ (atDepth 2 0).cur.trap.depth ≠ 0 ∧ (atDepth 0 0).cur.handler = none
    ∧ ((atDepth 1 0).frame (atDepth 1 0).cur 0).vec = false
    ∧ (∀ b ∈ [true, false], (replying b).cur.trap.depth ≠ 0 ∧ ((replying b).frame (replying b).cur 0).vec = true
        ∧ ((replying b).frame (replying b).cur 0).rply = b ∧ (replying b).cur.vec.strip.isSome = true) := by decide +kernel

theorem wit_BarredWhileTrapped : (atDepth 1 0).cur.trap.depth ≠ 0 ∧ (atDepth 2 0).cur.trap.depth ≠ 0 := by decide +kernel

/-! ### System registers -/

/-- The hart at another level. -/
def atLevel (l : Level) : State := (three 5 6 7).onCur fun x => { x with base := { x.base with level := l } }

/-- Each fate of R278 at the edges of its range, an access that goes through at each level, and GATTACH apart no write that waits. -/
theorem wit_SystemRegisterAccess : 0xC00 ≤ (0xC00 : BitVec 12).toNat ∧ 0x400 ≤ (0x400 : BitVec 12).toNat ∧ (0x7FF : BitVec 12).toNat < 0xC00
    ∧ (atLevel .user).cur.base.level = .user ∧ 0x800 ≤ (0x800 : BitVec 12).toNat ∧ (0xBFF : BitVec 12).toNat < 0xC00
    ∧ (atLevel .supervisor).cur.base.level = .supervisor
    ∧ ((0x3FF : BitVec 12).toNat / 0x400 ≤ (atLevel .user).cur.base.level.code ∧ (atLevel .user).regValue 0x3FF = none)
    ∧ ((0x070 : BitVec 12).toNat / 0x400 ≤ (atLevel .user).cur.base.level.code ∧ ((atLevel .user).readReg 0x070).isSome = true)
    ∧ ((0x400 : BitVec 12).toNat / 0x400 ≤ (atLevel .supervisor).cur.base.level.code ∧ ((atLevel .supervisor).readReg 0x400).isSome = true)
    ∧ ((0x801 : BitVec 12).toNat / 0x400 ≤ (atLevel .management).cur.base.level.code ∧ ((atLevel .management).readReg 0x801).isSome = true)
    ∧ okAnd ((atLevel .user).writeReg 0x070 5) (fun _ _ => true) = true := by decide +kernel

theorem wit_RegisterWrites : (plainRegs.all fun p => p.1.toNat / 0x400 ≤ (atLevel .management).cur.base.level.code
    && ((atLevel .management).regValue p.1.toNat).isSome) = true ∧ (atLevel .supervisor).cur.base.level ≠ .user := by decide +kernel

/-! ### Caches and translations -/

/-- The scratchpad window, a page, no page, a page that is not present. -/
theorem wit_CacheMaintenance : (∀ c ∈ [2, 3, 4, 5], (paged 0xFF00000000000000 0).admits (.cflush 1 c))
    ∧ inWindow ((paged 0xFF00000000000000 0).g 1) = true ∧ inWindow ((paged 0x1FFFF 0).g 1) = false
    ∧ (okAnd (resolve (paged 0x1FFFF 0) (paged 0x1FFFF 0).cur.cx .read ((paged 0x1FFFF 0).g 1)) fun _ _ => true) = true
    ∧ (trapAnd (resolve (paged 0x30000 0) (paged 0x30000 0).cur.cx .read ((paged 0x30000 0).g 1)) fun _ _ _ => true) = true
    ∧ (∀ i ∈ [Instr.tlbi 1 2 0, .tlbi 0 2 1, .tlbi 0 0 2], (atLevel .supervisor).admits i) ∧ ((atLevel .supervisor).g 2).toNat % 0x20000 ≠ 0
    ∧ ((atLevel .supervisor).g 4).toNat % 0x20000 = 0 := by
  unfold State.admits
  decide +kernel

theorem wit_CacheMaintenance_absent : stalls (resolve (paged 0x60000 0) (paged 0x60000 0).cur.cx .read ((paged 0x60000 0).g 1)) = true :=
  stalls_steward (a := 0x431030) (e := 0x45012E) (by decide +kernel) (by decide +kernel) (by decide +kernel) rfl fun _ => by
    rw [staleLeaves, show (paged 0x60000 0).store.tlb = [] from rfl]
    rfl

/-- Nobody has used a translation that falls; another hart has a buffered store behind one. -/
theorem wit_CacheMaintenance_users : ([0, 1, 2].all fun m => (atLevel .supervisor).harts.all fun x =>
      !x.usesCovered false (tlbiCoversPage (atLevel .supervisor) m 0 0)) = true
    ∧ (let y := (strip 4 4 [] 0 0 0 0).cur
      let z : Hart := { y with id := ⟨0, 0, 1, 0⟩, vec := { y.vec with strip := y.vec.strip.map fun t =>
        { t with stores := [⟨none, 0x10000, 0x440000, 0, 0, 32, false, 0, false, 0⟩] } } }
      let s : State := { atLevel .supervisor with others := [z] }
      s.admits (.tlbi 0 0 2) ∧ ∃ x ∈ s.others, x.usesCovered false (tlbiCoversPage s 2 0 0) = true) := by
  unfold State.admits
  decide +kernel

/-- No session records. -/
theorem wit_CacheMaintenance_traces : ∀ die n, ((atLevel .supervisor).trace die n).en = false := by
  have h : ∀ d < 4, ∀ k < 4, ((atLevel .supervisor).trace d k).en = false := by decide +kernel
  intro die n
  simpa [State.trace, State.die] using h (die % 4) (Nat.mod_lt _ (by decide)) (n % 4) (Nat.mod_lt _ (by decide))

end Sys2Proof.Tests
end

