-- ==== Sys2Proof/Tests/WitnessVector.lean ====
section
/-! SUPPORT. For each statement about vector and matrix instructions that has hypotheses, states and operands that meet them. -/

set_option Elab.async false

namespace Sys2Proof.Tests

open Sys2Proof.Machine

/-- May the vector instruction run (`State.vectorOk`)? -/
def ok (s : State) (i : Instr) : Bool := s.vectorReady && i.legal && s.cur.hasFeatures i

theorem vectorOk_of {s : State} {i : Instr} (h : ok s i = true) : s.vectorOk i := by
  unfold ok at h
  simp only [Bool.and_eq_true] at h
  exact ⟨h.1.1, h.1.2, h.2⟩

/-- A strip of four elements, one of VLMAX at I32, one without elements, and one of VLMAX at I8. -/
def strips : List State := [strip 4 4 [0] 7 8 9 5, strip 1024 1024 [0] 7 8 9 5, strip 0 0 [0] 7 8 9 5, strip 4096 4096 [0] 7 8 9 5]

/-- Fields for FMT `fmt`: with B and E, with B, with neither. -/
def shapes (fmt : Nat) : List VFields := [vf 3 1 2 1 0 fmt 0 0 0, vf 3 1 2 0 0 fmt 0 0 0, vf 3 1 0 0 0 fmt 0 0 0]

theorem wit_VectorIntegerResults : (strips.all fun s => intVecRows.all fun p => [2, 4].all fun x => (shapes x).any fun f => ok s (p.1 f)) = true := by
  decide +kernel

theorem wit_SaturationRule : (strips.all fun s => (shapes 0).any fun f => ok s (.vadd f) && ok s (.vmul f) && ok s (.vsub f) && ok s (.vadds f)
    && ok s (.vsubs f) && ok s (.vaddsu f) && ok s (.vsubsu f)) = true ∧ (shapes 4).any (fun f => ok (strip 4 4 [0] 7 8 9 5) (.vmad f)) = true
    ∧ (strip 4 4 [0] 7 8 9 5).act ((strip 4 4 [0] 7 8 9 5).cur.range 8) (vf 3 1 2 0 0 0 0 0 0) 3 = true
    ∧ (strip 4 4 [0] 7 8 9 5).act ((strip 4 4 [0] 7 8 9 5).cur.range 8) (vf 3 1 2 0 1 0 0 0 0) 2 = true := by decide +kernel

theorem wit_MaskAndReductionResults : (strips.all fun s => (List.range 8).all fun c => ok s (.vcmp (vf 3 1 2 0 0 2 c 0 0)) && ok s (.vred (vf 0 1 0 0 0 2 c 3 0))) = true
    ∧ (strips.all fun s => ok s (.mand (vf 3 1 2 0 0 0 0 0 0)) && ok s (.mor (vf 3 1 2 0 0 0 0 0 0)) && ok s (.mxor (vf 3 1 2 0 0 0 0 0 0))
        && ok s (.mandn (vf 3 1 2 0 0 0 0 0 0)) && ok s (.mpop (vf 0 1 0 0 0 0 0 3 0)) && ok s (.mfirst (vf 0 1 0 0 0 0 0 3 0))
        && ok s (.msbf (vf 3 1 0 0 0 0 0 0 0)) && [0, 1, 2].all fun n => ok s (.vconf (vf 3 1 0 0 0 2 n 0 0))) = true := by decide +kernel

theorem wit_PermuteResults : (strips.all fun s => ok s (.vmov (vf 3 1 0 0 0 2 0 0 0)) && ok s (.vbcast (vf 3 0 2 0 0 2 8 0 0)) && ok s (.vidx (vf 3 0 0 0 0 2 0 0 0xFFFF))
    && ok s (.vswz (vf 3 1 0 0 0 2 0 0 3)) && ok s (.vswz (vf 3 1 0 0 0 2 1 0 3)) && ok s (.vshuf (vf 3 1 2 0 0 2 0 0 0))
    && ok s (.vslideup (vf 3 1 0 0 0 2 16 0 1)) && ok s (.vslidedn (vf 3 1 2 0 0 2 8 0 0)) && ok s (.vmerge (vf 3 1 2 0 1 2 0 0 0))
    && ok s (.vcomp (vf 3 1 0 0 1 2 0 0 0)) && ok s (.vcomp (vf 3 1 0 0 1 2 1 3 0)) && ok s (.vexpd (vf 3 1 0 0 1 2 0 0 0)) && ok s (.vins (vf 3 1 0 0 0 2 16 0 0))
    && ok s (.vext (vf 0 1 0 0 0 2 20 3 0xFFFF))) = true := by decide +kernel

theorem wit_ControlWords : (strips.all fun s => ok s (.vbar (vf 0 0 0 0 0 0 0 0 0)) && ok s (.vnop (vf 0 0 0 0 0 0 0 0 0))
    && ok s (.vstop (vf 0 0 0 0 0 0 0 0 0))) = true
    ∧ (strip 1024 1024 [0] 0 0 0 0).cur.vec.vl ≤ (strip 1024 1024 [0] 0 0 0 0).cur.vlmax 32
    ∧ (strip 1025 1056 [0] 0 0 0 0).cur.vlmax 32 < (strip 1025 1056 [0] 0 0 0 0).cur.vec.vl := by decide +kernel

theorem wit_IllegalVectorWords : State.reset.vectorReady = false ∧ (encode (.vadd (vf 3 1 2 0 0 2 0 0 0)) matches .vector _)
    ∧ (step { State.reset with agenda := [.event (.vadd (vf 3 1 2 0 0 2 0 0 0))] } matches .fault .noStrip)
    ∧ (let s := strip 4 4 [0] 0 0 0 0
       s.vectorReady = true ∧ s.cur.vec.strip.any (!·.aborted) = true ∧ s.cur.vec.session.isNone = true
       ∧ (intVecRows.all fun p => !(p.1 (vf 3 1 2 1 0 10 0 0 0)).legal) = true
       ∧ (Instr.vadd (vf 3 1 2 0 0 4 0 0 0)).legal = true
       ∧ ((s.onCur fun x => { x with base := { x.base with feat := 0 } }).cur.hasFeatures (.vadd (vf 3 1 2 0 0 4 0 0 0))) = false) := by decide +kernel

/-- The formats of the floating-point instructions. -/
def floats : List Nat := [5, 6, 7, 8, 9, 10, 11]

theorem wit_VectorFloatResults : (strips.all fun s => floatVecRows.all fun p => floats.any fun x => (shapes x).any fun f => ok s (p.1 f)) = true := by
  decide +kernel

theorem wit_VectorConversions : (strips.all fun s => ok s (.vfclass (vf 3 1 0 0 0 10 0 0 0x3FF)) && ok s (.vfcmp (vf 3 1 2 0 0 10 3 0 0))
    && ok s (.vcvt (vf 3 1 0 0 0 8 0xA0 0 0)) && ok s (.vqmx (vf 3 1 0 4 0 7 0xA0 0 0))) = true
    ∧ (∃ v ∈ [Val.nan false], v.isNan = true) ∧ (∀ v ∈ ([] : List Val), ∃ n e, v = .fin n 0 e)
    ∧ ∃ n m e, Val.fin n m e ∈ [Val.fin true 3 0] ∧ m ≠ 0 ∧ (Nat.log2 3 : Int) + 0 ≤ Nat.log2 m + e := by
  refine ⟨by decide +kernel, ⟨_, List.mem_singleton.mpr rfl, rfl⟩, by simp, _, _, _, List.mem_singleton.mpr rfl, by decide, by decide⟩

theorem wit_FloatReductions : (strips.all fun s => ok s (.vfred (vf 0 1 0 0 0 10 0 3 0)) && ok s (.vfred (vf 0 1 2 0 0 10 0x20 3 0))
    && ok s (.vfredo (vf 0 1 0 0 0 10 0 3 0)) && ok s (.vfredo (vf 0 1 2 0 0 10 0x20 3 0))) = true
    ∧ ((strip 4 4 [0] 0 0 0 0).cur.range 32).vl ≤ 2 ^ 2 ∧ 2 ≤ 20 ∧ ((strip 1024 1024 [0] 0 0 0 0).cur.range 32).vl ≤ 2 ^ 10 := by decide +kernel

theorem wit_PlainAccessWithScope : (strip 4 4 [0] 0 0 0 0).vectorReady = true ∧ (vf 0 0 0 0 0 2 0 1 0x0800).ord = 0 ∧ (vf 0 0 0 0 0 2 0 1 0x0800).scp ≠ 0
    ∧ (vf 0 0 0 0 0 2 0 1 0x3800).scp ≠ 0 := by decide +kernel

/-! ### Vector memory -/

/-- A strip with stream q1 over 4-byte elements from `base` on, q2 over bytes, q3 lane-local, the others inactive; `charge` bytes of
lane 0's store buffer used. -/
def streaming (vl charge : Nat) (base : Word) : State :=
  let s := strip vl vl [0] 0 0 (0 + 1 * 2 ^ 32 + 2 * 2 ^ 64 + 3 * 2 ^ 96) 5
  let q1 : Stream := ⟨base, 4, 0, 65536, 0, 3, 0, 0, true⟩
  s.onCur fun x => { x with
    qs := { x.qs with q := Vector.ofFn fun i => if i.val = 1 then q1 else if i.val = 2 then { q1 with esz := 1 }
      else if i.val = 3 then { q1 with space := 1 } else .off }
    vec := { x.vec with strip := x.vec.strip.map fun y => { y with charge := if charge = 0 then [] else [(0, charge)] } } }

/-- VLD, VGATH, VST and VSCAT of I32 through q1. -/
def vload : VFields := vf 3 0 0 0 0 2 0 1 0
def vindexed : VFields := vf 3 0 2 0 0 2 0 1 0
def vstore : VFields := vf 0 1 0 0 0 2 0 1 0
def vscattered : VFields := vf 0 1 2 0 0 2 0 1 0

/-- Where an element lies. -/
def placeOf (s : State) (x : Elem) : Spot :=
  match x.lane with
  | some _ => ⟨x.addr.toNat, s.cur.base.key.toNat, 2⟩
  | none =>
    if inWindow x.va then (windowSpot s.cur.vectorCx x.va).getD ⟨0, 0, 0⟩
    else match walk s s.cur.vectorCx.root x.va.toNat with
      | .leaf _ e l => ⟨leafLoc e l x.va.toNat, bitsOf e 63 56, 2⟩
      | _ => ⟨0, 0, 0⟩

/-- Does it lie there (`VMem.finds`)? -/
def lies (s : State) (m : VMem) (k : Kind) (x : Elem) : Bool :=
  decide (m.q.esz ≠ 0 → x.addr % (m.q.bytes : Int) = 0) &&
    match x.lane with
    | some _ => decide (0 ≤ x.addr ∧ x.addr < 8192)
    | none => decide (m.virt = true → spaceOf (placeOf s x).loc ≠ .host) &&
      (if inWindow x.va then decide (k ≠ .fetch ∧ windowSpot s.cur.vectorCx x.va = some (placeOf s x))
      else canonical x.va && match walk s s.cur.vectorCx.root x.va.toNat with
        | .leaf _ e l => leafAllows s.pkgid.toNat s.cur.vectorCx.user s.cur.vectorCx.key k e l x.va.toNat
          && decide (placeOf s x = ⟨leafLoc e l x.va.toNat, bitsOf e 63 56, 2⟩) && decide (s.store.tlb = [])
        | _ => false)

theorem finds_of {s : State} {m : VMem} {k : Kind} {x : Elem} (h : lies s m k x = true) : m.finds s k x (placeOf s x) := by
  unfold lies at h
  rw [Bool.and_eq_true] at h
  refine ⟨of_decide_eq_true h.1, ?_⟩
  have h := h.2
  cases hl : x.lane with
  | some l =>
    rw [hl] at h
    have h := of_decide_eq_true h
    exact ⟨h.1, h.2, by simp [placeOf, hl]⟩
  | none =>
    rw [hl] at h
    simp only [Bool.and_eq_true] at h
    refine ⟨?_, of_decide_eq_true h.1⟩
    have h := h.2
    cases hw : inWindow x.va with
    | true =>
      rw [hw] at h
      have h := of_decide_eq_true h
      exact .inl ⟨hw, h.1, h.2⟩
    | false =>
      rw [hw] at h
      simp only [Bool.false_eq_true, if_false, Bool.and_eq_true] at h
      refine .inr ⟨hw, h.1, ?_⟩
      have h := h.2
      split at h
      next a e l hk =>
        simp only [Bool.and_eq_true] at h
        exact ⟨a, e, l, hk, h.1.1, of_decide_eq_true h.1.2, by simp [of_decide_eq_true h.2]⟩
      next => cases h

/-- Can every element that takes part be read at once, and does one take part? -/
def allReadable (s : State) (m : VMem) : Bool :=
  m.streamOk && !(m.elems s).isEmpty && (m.elems s).all fun x => lies s m .read x && decide (x.lane = none →
    spaceOf (placeOf s x).loc ≠ .host ∧ s.check (placeOf s x) m.q.bytes false = none ∧ s.linkHeld s.cur.id.die (placeOf s x).loc = false)

theorem readable_of {s : State} {m : VMem} (h : allReadable s m = true) :
    m.streamOk = true ∧ m.elems s ≠ [] ∧ ∀ x ∈ m.elems s, m.readable s x (placeOf s x) := by
  unfold allReadable at h
  simp only [Bool.and_eq_true, List.all_eq_true, Bool.not_eq_true', List.isEmpty_eq_false_iff] at h
  exact ⟨h.1.1, h.1.2, fun x hx => ⟨finds_of (h.2 x hx).1, of_decide_eq_true (h.2 x hx).2⟩⟩

/-- Elements behind a leaf, in the scratchpad window, in the lanes' stores; VGLNK behind 15 all-fail VSCNDs of the same lines. -/
theorem wit_VectorLoads_direct :
    (∀ b ∈ [(0x10000, 1), (0xFF00000000000000, 1), (0, 3)], let s := streaming 4 0 b.1
      let f := vf 3 0 0 0 0 2 0 b.2 0
      ok s (.vld f) = true ∧ (s.vmem f false false).streamOk = true ∧ (s.vmem f false false).elems s ≠ []
        ∧ ∀ x ∈ (s.vmem f false false).elems s, (s.vmem f false false).readable s x (placeOf s x))
    ∧ (∀ b ∈ [0x10000, 0xFF00000000000000], let s := streaming 4 0 b
      (s.vmem vindexed true false).streamOk = true ∧ (s.vmem vindexed true false).elems s ≠ []
        ∧ ∀ x ∈ (s.vmem vindexed true false).elems s, (s.vmem vindexed true false).readable s x (placeOf s x))
    ∧ (let s := (streaming 4 0 0x10000).onCur fun x => { x with linkSet := [0x400], allFail := 15 }
      ok s (.vglnk vindexed) = true ∧ s.cur.allFail < 16
      ∧ sameLines (((s.vmem vindexed true true).elems s).map fun x => x.va.toNat / 64).eraseDups s.cur.linkSet = true
      ∧ (s.vmem vindexed true true).streamOk = true ∧ (s.vmem vindexed true true).elems s ≠ []
      ∧ ∀ x ∈ (s.vmem vindexed true true).elems s, (s.vmem vindexed true true).readable s x (placeOf s x)) := by
  refine ⟨?_, ?_, by decide +kernel, by decide +kernel, by decide +kernel, readable_of (by decide +kernel)⟩
  · have h : ([(0x10000, 1), (0xFF00000000000000, 1), (0, 3)] : List (Word × Nat)).all (fun b =>
        ok (streaming 4 0 b.1) (.vld (vf 3 0 0 0 0 2 0 b.2 0))
          && allReadable (streaming 4 0 b.1) ((streaming 4 0 b.1).vmem (vf 3 0 0 0 0 2 0 b.2 0) false false)) = true := by decide +kernel
    intro b hb
    have h := List.all_eq_true.mp h b hb
    rw [Bool.and_eq_true] at h
    exact ⟨h.1, readable_of h.2⟩
  · have h : ([0x10000, 0xFF00000000000000] : List Word).all (fun b =>
        allReadable (streaming 4 0 b) ((streaming 4 0 b).vmem vindexed true false)) = true := by decide +kernel
    exact fun b hb => readable_of (List.all_eq_true.mp h b hb)

/-- All elements read; the third beyond the end of the page; the first beyond it. -/
theorem wit_VectorLoads : ok (streaming 4 0 0x10000) (.vld vload) = true ∧ ok (streaming 4 0 0x10000) (.vgath vindexed) = true
    ∧ ok (streaming 4 0 0x10000) (.vpref (vf 0 0 0 0 0 2 0 1 0)) = true ∧ ok (streaming 4 0 0x10000) (.vglnk vindexed) = true
    ∧ (∀ b ∈ [(0x10000, none), (0x1FFF8, some 2)], let s := streaming 4 0 b.1
        ((s.vmem vload false false).streamOk && (s.vmem vindexed true false).streamOk) = true
        ∧ okAnd ((s.vmem vload false false).loadAll s.cur.vectorCx (.of vload.ord vload.scp) ((s.vmem vload false false).elems s) s)
            (fun r _ => r.2 = b.2 && !r.1.isEmpty) = true
        ∧ okAnd ((s.vmem vindexed true false).loadAll s.cur.vectorCx (.of vindexed.ord vindexed.scp) ((s.vmem vindexed true false).elems s) s)
            (fun r _ => r.2 = b.2 && !r.1.isEmpty) = true) := by decide +kernel

/-- Where every element lies a store finds it, behind a leaf, in the window and in the lanes' stores. -/
theorem wit_VectorStores_direct : ∀ b ∈ [(0x10000, 1), (0xFF00000000000000, 1), (0, 3)], let s := streaming 1 0 b.1
    let f := vf 0 1 0 0 0 2 0 b.2 0
    ∀ y ∈ (s.vmem f false false).elems s, (s.vmem f false false).finds s .write y (placeOf s y) := by
  have h : ([(0x10000, 1), (0xFF00000000000000, 1), (0, 3)] : List (Word × Nat)).all (fun b =>
      ((((streaming 1 0 b.1).vmem (vf 0 1 0 0 0 2 0 b.2 0) false false).elems (streaming 1 0 b.1)).all fun y =>
        lies (streaming 1 0 b.1) ((streaming 1 0 b.1).vmem (vf 0 1 0 0 0 2 0 b.2 0) false false) .write y)) = true := by decide +kernel
  exact fun b hb y hy => finds_of (List.all_eq_true.mp (List.all_eq_true.mp h b hb) y hy)

/-- A buffer that the stores fill to the last byte, and one that they overfill. -/
theorem wit_VectorStores : (let s := streaming 1 2032 0x10000
      let m := s.vmem vstore false false
      ok s (.vst vstore) = true ∧ m.streamOk = true ∧ (addCharges [(0, 2032)] m.groupCharges).foldl (fun a c => max a c.2) 0 ≤ 2048
      ∧ okAnd (m.spots s.cur.vectorCx (m.elems s) s) (fun xs s1 => !xs.isEmpty && s1.cur = s.cur) = true)
    ∧ (let s := streaming 1 2048 0x10000
      2048 < (addCharges [(0, 2048)] (s.vmem vstore false false).groupCharges).foldl (fun a c => max a c.2) 0)
    ∧ (let s := streaming 1 0 0x10000
      let m := s.vmem vscattered true false
      ok s (.vscat vscattered) = true ∧ m.streamOk = true ∧ (addCharges [] (m.elemCharges s)).foldl (fun a c => max a c.2) 0 ≤ 2048
      ∧ okAnd (m.spots s.cur.vectorCx (m.elems s) s) (fun xs s1 => !xs.isEmpty && s1.cur = s.cur) = true)
    ∧ (let s := streaming 1 2048 0x10000
      2048 < (addCharges [(0, 2048)] ((s.vmem vscattered true false).elemCharges s)).foldl (fun a c => max a c.2) 0) := by decide +kernel

/-- Nothing waits for the boundary of a strip. -/
def unasked (u : State) : Bool := u.cur.wait.cancel = none && u.cur.lease.draining = none && u.cur.wait.move = none

/-- VWAITV.EQ with T = 1. -/
def vwait : VFields := vf 3 1 0 0 0 2 0 1 1

/-- Do the elements lie in owned scratchpad bytes, where nothing is under way that arrives at a sync word? -/
def inScratch (s : State) (xs : List (Elem × Spot)) (n : Nat) : Bool :=
  s.store.bytes.wf && s.engines.attached = [] && s.cores.all (fun k => k.wire = [] && k.queue = []) && s.harts.all (fun x => x.qs.cq0 = [] && x.qs.cq1 = [] && x.handler = none)
    && xs.all fun x => x.2.loc % n = 0 && x.2.win ≠ 2 && spaceOf x.2.loc ≠ .host && s.store.ownerOf x.2.loc ≠ freeOwner

theorem plainPlaces_of {s : State} {xs : List (Elem × Spot)} {n : Nat} {write : Bool} (h : inScratch s xs n = true) : s.plainPlaces xs n write := by
  unfold inScratch at h
  simp only [Bool.and_eq_true, decide_eq_true_eq, List.all_eq_true] at h
  obtain ⟨⟨⟨⟨wf, att⟩, cores⟩, quiet⟩, lies⟩ := h
  have behind : ∀ b : Mem, ∀ x ∈ xs, (s.withBytes b).leafBehind x = none := fun b x hx => if_neg (lies x hx).1.1.2
  have none_here : ∀ x ∈ xs, s.leafBehind x = none := behind s.store.bytes
  refine ⟨wf, fun x hx => ⟨(lies x hx).1.1.1, (lies x hx).1.2, (lies x hx).2, fun y hy l hl => ?_⟩, fun b _ _ x hx => ⟨?_, fun _ => ⟨?_, ?_⟩⟩⟩
  · rw [none_here y hy] at hl
    cases hl
  · rw [behind b x hx, none_here x hx]
  · have e : (s.withBytes b).arrivals = [] := by
      show s.harts.flatMap (s.withBytes b).hartArrivals ++ s.cores.flatMap (s.withBytes b).coreArrivals = []
      rw [List.append_eq_nil_iff, List.flatMap_eq_nil_iff, List.flatMap_eq_nil_iff]
      refine ⟨fun y hy => ?_, fun k hk => ?_⟩
      · have := quiet y hy
        unfold State.hartArrivals
        rw [this.1.1, this.1.2, this.2]
        rfl
      · have := cores k hk
        unfold State.coreArrivals
        rw [this.1, this.2]
        rfl
    unfold State.syncHit
    split <;> first | (rw [e]; rfl) | rfl
  · have e : (s.withBytes b).engineHit x.2.loc n = [] := by
      show s.engines.attached.flatMap _ = []
      rw [att]; rfl
    unfold State.wild State.leafHit
    rw [e, List.nil_append, List.flatMap_eq_nil_iff]
    intro a _
    have : decide (x.2.win = 2) = false := decide_eq_false (lies x hx).1.1.2
    simp only [this, Bool.false_and, Bool.false_eq_true, if_false]

/-- A strip with a stream over the core's scratchpad, whose first page slot 0 owns; element 1 has a link. -/
def scratched : State :=
  ((streaming 4 0 0xFF00000000000000).onStore fun st => { st with owners := Table.set freeOwner st.owners (ownerKey scratchBase) 0 }).onCur fun x =>
    { x with links := [⟨1, 0xFF00000000000004, scratchBase + 4, false⟩] }

/-- Do the checks pass, does the strip commit, and do the elements lie plainly? -/
def commits (m : VMem) (k : Kind) (write : Bool) : Bool :=
  m.streamOk && okAnd (m.claims scratched.cur.vectorCx k write (m.elems scratched) scratched) fun xs s1 => !xs.isEmpty && doneAnd s1.commit fun s2 =>
    unasked s2 && inScratch s2 xs m.q.bytes

theorem commits_of {m : VMem} {k : Kind} {write : Bool} (h : commits m k write = true) : m.streamOk = true ∧ ∃ xs s1 s2,
    m.claims scratched.cur.vectorCx k write (m.elems scratched) scratched = .ok xs s1 ∧ s1.commit = .done s2 ∧ xs ≠ []
      ∧ (s2.cur.wait.cancel = none ∧ s2.cur.lease.draining = none ∧ s2.cur.wait.move = none) ∧ s2.plainPlaces xs m.q.bytes write := by
  unfold commits at h
  rw [Bool.and_eq_true] at h
  obtain ⟨xs, s1, h1, h2⟩ := okAnd_iff h.2
  rw [Bool.and_eq_true, Bool.not_eq_true', List.isEmpty_eq_false_iff] at h2
  obtain ⟨s2, h3, h4⟩ := doneAnd_iff h2.2
  rw [Bool.and_eq_true] at h4
  have u := h4.1
  unfold unasked at u
  simp only [Bool.and_eq_true, decide_eq_true_eq] at u
  exact ⟨h.1, xs, s1, s2, h1, h3, h2.1, ⟨u.1.1, u.1.2, u.2⟩, plainPlaces_of h4.2⟩

theorem wit_VectorCommitPoints_ok : ok scratched (.vscnd vindexed) = true ∧ ok scratched (.vwaitv vwait) = true ∧ scratched.cur.wait.deadline = none
    ∧ ∀ fn ∈ [0, 0x80], ok scratched (.vamo (vf (if fn = 0 then 0 else 3) 1 2 0 0 2 fn 1 0)) = true := by decide +kernel

theorem wit_VectorCommitPoints_commits : ∀ c ∈ [(scratched.vmem vindexed true true, Kind.write, true), (scratched.vmem (vf 3 1 2 0 0 2 0x80 1 0) true true, .readWrite, true),
      (scratched.vmem (vf 0 1 2 0 0 2 0 1 0) true true, .readWrite, true), (scratched.vmem vwait (bitsOf vwait.fnN 2 2 = 1) true, .read, false)],
    c.1.streamOk = true ∧ ∃ xs s1 s2, c.1.claims scratched.cur.vectorCx c.2.1 c.2.2 (c.1.elems scratched) scratched = .ok xs s1 ∧ s1.commit = .done s2 ∧ xs ≠ []
      ∧ (s2.cur.wait.cancel = none ∧ s2.cur.lease.draining = none ∧ s2.cur.wait.move = none) ∧ s2.plainPlaces xs c.1.q.bytes c.2.2 := by
  have h : [(scratched.vmem vindexed true true, Kind.write, true), (scratched.vmem (vf 3 1 2 0 0 2 0x80 1 0) true true, .readWrite, true),
      (scratched.vmem (vf 0 1 2 0 0 2 0 1 0) true true, .readWrite, true), (scratched.vmem vwait (bitsOf vwait.fnN 2 2 = 1) true, .read, false)].all
        (fun c => commits c.1 c.2.1 c.2.2) = true := by decide +kernel
  exact fun c hc => commits_of (List.all_eq_true.mp h c hc)

/-- A VWAITV that goes on, before and at its deadline, with elements that it watches or none. -/
theorem wit_VectorCommitPoints_waits : ∀ ws ∈ [[], [⟨1, 0xFF00000000000004, scratchBase + 4, 0⟩, ⟨3, 0xFF0000000000000C, scratchBase + 12, 0⟩]], ∀ d ∈ [0, 300],
    let s := scratched.onCur fun x => { x with wait := { x.wait with deadline := some d, watch := ws } }
    ok s (.vwaitv vwait) = true ∧ (s.vmem vwait (bitsOf vwait.fnN 2 2 = 1) true).streamOk = true ∧ s.cur.wait.deadline = some d ∧ s.cur.wait.bad = none
      ∧ (s.cur.wait.watch.map (·.elem)).Nodup ∧ (∀ w ∈ s.cur.wait.watch, spaceOf w.loc ≠ .host) := by decide +kernel

/-- A stream that is off, one with another element size, and a lane-local one. -/
theorem wit_IllegalVectorWords_streams : let s := streaming 4 0 0x10000
    (∀ q ∈ [0, 2], let f := vf 3 0 0 0 0 2 0 q 0
      (s.vmem f false false).streamOk = false ∧ ok s (.vld f) = true ∧ ok s (.vst (vf 0 1 0 0 0 2 0 q 0)) = true ∧ ok s (.vpref (vf 0 0 0 0 0 2 0 q 0)) = true)
    ∧ (∀ q ∈ [0, 2, 3], let f := vf 3 0 2 0 0 2 0 q 0
      (s.vmem f true true).streamOk = false ∧ ok s (.vglnk f) = true ∧ ok s (.vscnd f) = true ∧ ok s (.vamo (vf 0 1 2 0 0 2 0 q 0)) = true
        ∧ (s.vmem (vf 3 1 0 0 0 2 0 q 1) false true).streamOk = false ∧ ok s (.vwaitv (vf 3 1 0 0 0 2 0 q 1)) = true ∧ s.cur.wait.deadline = none)
    ∧ (s.cur.stream 0).active = false ∧ eszWidth (s.cur.stream 2).esz.toNat ≠ 32 ∧ (s.cur.stream 3).space = 1 := by decide +kernel

/-! ### Matrix instructions -/

/-- A strip in a session on one Pod, F32 or I32, with DEFINED tiles of zeros. -/
def session (kind : Bool) (area : Word) (quota : Nat) : State :=
  let ml := if kind then 64 else 128
  (strip 4096 4096 [0] 0 0 0 0).onCur fun x => { x with
    lease := { x.lease with force := ⟨1, 1, 1, quota, true⟩ }
    vec := { x.vec with
      session := some ⟨kind, ml, 64, area, []⟩
      regs := { x.vec.regs with w := Vector.replicate 4 ⟨0, true, List.replicate (ml * 64) 0⟩ } } }

theorem wit_MatrixResults : (let s := session true 0 16
      s.cur.vec.session.isSome = true ∧ s.cur.vec.strip.any (·.ext.isEmpty) = true
      ∧ ok s (.mzero (vf 1 0 0 0 0 10 0 0 0)) = true ∧ s.cur.matrixOk (.mzero (vf 1 0 0 0 0 10 0 0 0)) = true
      ∧ ok s (.mopa (vf 1 2 4 0 0 7 0x70 0 0)) = true ∧ s.cur.matrixOk (.mopa (vf 1 2 4 0 0 7 0x70 0 0)) = true
      ∧ ok s (.mopax (vf 1 2 4 6 0 7 0x70 0 0)) = true ∧ s.cur.matrixOk (.mopax (vf 1 2 4 6 0 7 0x70 0 0)) = true ∧ (s.cur.tile 1).kc ≤ 4095
      ∧ ok s (.mfill (vf 1 2 0 0 0 10 0 0 0)) = true ∧ s.cur.matrixOk (.mfill (vf 1 2 0 0 0 10 0 0 0)) = true
      ∧ ok s (.mdrain (vf 3 1 0 0 0 10 0 0 0)) = true ∧ s.cur.matrixOk (.mdrain (vf 3 1 0 0 0 10 0 0 0)) = true) := by decide +kernel

/-- The first cell of tile 1 stands at the edge of 24 bits and the others at 0: one may carry, and one carry in 4,096 entries fits. -/
def edge : State := (session false 0 16).onCur fun x => { x with
  vec := { x.vec with regs := { x.vec.regs with w := x.vec.regs.w.set 1 ⟨0, true, 0x7FFFFF :: List.replicate 511 0⟩ } } }

theorem wit_MatrixResults_int : let s := edge
    let f := vf 1 2 4 0 0 0 0 0 0
    let old := s.cur.tile 1
    let kb := s.cur.kb ⟨false, 128, 64, 0, []⟩ 8
    s.cur.vec.session = some ⟨false, 128, 64, 0, []⟩ ∧ ok s (.mopai f) = true ∧ s.cur.matrixOk (.mopai f) = true
    ∧ s.cur.vec.marrow.length + ((List.range old.cells.length).filter fun k => 2 ^ 23 ≤ (old.cells.getD k 0).toInt.natAbs + kb * 65025).length
        ≤ 256 * s.cur.lease.force.quota
    ∧ kb * 65025 / 2 ^ 24 + 1 ≤ 127 ∧ (s.marrowOf (1, 0, 0)).natAbs = 0 := by decide +kernel

theorem wit_MatrixResults_carry : let s := (session false 0 16).onCur fun x => { x with vec := { x.vec with marrow := [⟨1, 0, 0, 127, false⟩] } }
    s.cur.lease.force.mode = true ∧ 127 < (s.marrowOf (1, 0, 0) + 1).natAbs := by decide +kernel

theorem wit_MatrixResults_bands : (∀ k ∈ [true, false], let s := session k 0 16
      let c := if k then 10 else 2
      s.cur.vec.session.any (fun m => m.kind = k ∧ m.area = 0) = true ∧ ok s (.mfill (vf 1 2 0 0 0 c 0 0 0)) = true
      ∧ s.cur.matrixOk (.mfill (vf 1 2 0 0 0 c 0 0 0)) = true
      ∧ s.cur.bandRows ⟨k, if k then 64 else 128, 64, 0, []⟩ 32 = 16 ∧ (s.cur.tile 1).defined = true
      ∧ ok s (.mdrain (vf 3 1 0 0 0 c 0 0 0)) = true ∧ s.cur.matrixOk (.mdrain (vf 3 1 0 0 0 c 0 0 0)) = true)
    ∧ (let s := (session false 0x10000 0).onCur fun x => { x with
         vec := { x.vec with regs := { x.vec.regs with w := Vector.replicate 4 ⟨0, true, [5]⟩ } } }
       s.cur.vec.session.any (fun m => !m.kind && m.area ≠ 0) = true
       ∧ okAnd (drainInts .i32 ⟨false, 128, 64, 0x10000, []⟩ 1 0 [5] s) (fun ls s1 => ls.length = 1 && s1.cur = s.cur) = true) := by
  decide +kernel

end Sys2Proof.Tests
end

/-! A plain access with a scope (R203): its word fails test 3 of R290 or R291, so it traps before it acts. -/

namespace Sys2Proof

/-! ### What ORD and SCP say of the fields of a vector word -/

/-- No list of allowed orders admits a scope on a plain access (R202, R203). -/
theorem VFields.ordOk_of_plain_scoped {f : VFields} (ho : f.ord = 0) (hs : f.scp ≠ 0) (allowed : List Nat) :
    f.ordOk allowed = false := by
  simp [VFields.ordOk, ho, hs]

/-- SCP is a part of IMM16 (R288). -/
theorem VFields.imm_ne_zero_of_scoped {f : VFields} (hs : f.scp ≠ 0) : f.imm ≠ 0#16 := by
  intro h
  exact hs (by simp [VFields.scp, VFields.immN, h, bitsOf])

end Sys2Proof

namespace Sys2Proof.Machine

/-! ### A word that fails its own checks -/

/-- The hart refuses an illegal word with Illegal Encoding, whatever its features and context (R290 test 3). -/
theorem Hart.refuses_of_illegal {i : Instr} (x : Hart) (h : i.legal = false) : x.refuses i = some 0x01 := by
  simp [Hart.refuses, h]

theorem scalar_of_illegal {i : Instr} {s : State} (h : i.legal = false) (body : State → Res Unit) :
    scalar i s body = .next (s.scalarTrap 0x01 i.word) :=
  scalar_refused (s.cur.refuses_of_illegal h) body

/-- The guard of R291 lets no illegal word of an open strip run. -/
theorem guardVector_of_illegal {i : Instr} {s : State} (hr : s.vectorReady = true) (h : i.legal = false) (go : Out) :
    guardVector i s go = vectorTrap s s 0x01 i.word := by
  simp [guardVector, hr, h]

/-! ### What ORD and SCP say of an access

The two lists below unfold `Instr.legal` by `delta` once the end of the list is gone: its equations, one for each instruction of the
table, take far longer to make than the proof. -/

/-- The scalar accesses with ORD plain and a scope are illegal (R203). -/
theorem scalarAccess_illegal_of_plain_scoped (d a b : Gpr) (w : BitVec 2) {c : BitVec 3} (k : BitVec 10) (n : BitVec 1)
    (q : BitVec 4) (hc : c ≠ 0) :
    ∀ i ∈ [Instr.ld d a w 0 c k, .ldu d a w 0 c k, .st d a w 0 c k, .amo d a b 0 c n q, .cas d a b 0 c n], i.legal = false := by
  have hscp : ¬ c = 0#3 := hc
  simp only [List.forall_mem_cons, List.not_mem_nil, false_implies, implies_true, and_true]
  delta Instr.legal
  simp [hscp]

/-- The vector memory instructions with ORD plain and a scope are illegal (R203); VPREF, which has no ORD, for its IMM16 (R352). -/
theorem vectorAccess_illegal_of_plain_scoped {f : VFields} (ho : f.ord = 0) (hs : f.scp ≠ 0) :
    ∀ i ∈ [Instr.vld f, .vst f, .vgath f, .vscat f, .vglnk f, .vscnd f, .vamo f, .vwaitv f, .vpref f], i.legal = false := by
  simp only [List.forall_mem_cons, List.not_mem_nil, false_implies, implies_true, and_true]
  delta Instr.legal
  simp [VFields.legalIndexed, VFields.ordOk_of_plain_scoped ho hs, VFields.imm_ne_zero_of_scoped hs]

/-! ### The accesses run under those checks -/

/-- A scalar access runs under the checks of R290. -/
theorem exec_scalarAccess (d a b : Gpr) (w : BitVec 2) (o : BitVec 1) (r : BitVec 2) (c : BitVec 3) (k : BitVec 10)
    (n : BitVec 1) (q : BitVec 4) (s : State) :
    ∀ i ∈ [Instr.ld d a w o c k, .ldu d a w o c k, .st d a w o c k, .amo d a b r c n q, .cas d a b r c n],
      ∃ body, exec i s = scalar i s body := by
  have ld : ∃ body, execLd d a w o c k s = scalar (.ld d a w o c k) s body := ⟨_, rfl⟩
  have ldu : ∃ body, execLdu d a w o c k s = scalar (.ldu d a w o c k) s body := ⟨_, rfl⟩
  have st : ∃ body, execSt d a w o c k s = scalar (.st d a w o c k) s body := ⟨_, rfl⟩
  have amo : ∃ body, execAmo d a b r c n q s = scalar (.amo d a b r c n q) s body := ⟨_, rfl⟩
  have cas : ∃ body, execCas d a b r c n s = scalar (.cas d a b r c n) s body := ⟨_, rfl⟩
  simp only [List.forall_mem_cons]
  exact ⟨ld, ldu, st, amo, cas, List.forall_mem_nil _⟩

/-- A vector memory instruction runs under the guard of R291. -/
theorem exec_vectorAccess (f : VFields) (s : State) :
    ∀ i ∈ [Instr.vld f, .vst f, .vgath f, .vscat f, .vglnk f, .vscnd f, .vamo f, .vwaitv f, .vpref f],
      ∃ go, exec i s = guardVector i s go := by
  have vld : ∃ go, execVld f s = guardVector (.vld f) s go := ⟨_, rfl⟩
  have vst : ∃ go, execVst f s = guardVector (.vst f) s go := ⟨_, rfl⟩
  have vgath : ∃ go, execVgath f s = guardVector (.vgath f) s go := ⟨_, rfl⟩
  have vscat : ∃ go, execVscat f s = guardVector (.vscat f) s go := ⟨_, rfl⟩
  have vglnk : ∃ go, execVglnk f s = guardVector (.vglnk f) s go := ⟨_, rfl⟩
  have vscnd : ∃ go, execVscnd f s = guardVector (.vscnd f) s go := ⟨_, rfl⟩
  have vamo : ∃ go, execVamo f s = guardVector (.vamo f) s go := ⟨_, rfl⟩
  have vwaitv : ∃ go, execVwaitv f s = guardVector (.vwaitv f) s go := ⟨_, rfl⟩
  have vpref : ∃ go, execVpref f s = guardVector (.vpref f) s go := ⟨_, rfl⟩
  simp only [List.forall_mem_cons]
  exact ⟨vld, vst, vgath, vscat, vglnk, vscnd, vamo, vwaitv, vpref, List.forall_mem_nil _⟩

/-- Settles O44: every access runs under the checks of its own word, and those refuse a scope on a plain order. -/
theorem plainAccessWithScope : Obligations.PlainAccessWithScope := by
  unfold Obligations.PlainAccessWithScope
  constructor
  · intro d a b w c k n q s hc i hi
    obtain ⟨body, hexec⟩ := exec_scalarAccess d a b w 0 0 c k n q s i hi
    rw [hexec, scalar_of_illegal (scalarAccess_illegal_of_plain_scoped d a b w k n q hc i hi)]
  · intro f s hr ho hs i hi
    obtain ⟨go, hexec⟩ := exec_vectorAccess f s i hi
    rw [hexec, guardVector_of_illegal hr (vectorAccess_illegal_of_plain_scoped ho hs i hi)]

end Sys2Proof.Machine

/-! The instructions barred while a trap is open (R228): each runs under tests 3 to 5 of R290, and the bar fails test 4. -/

namespace Sys2Proof.Machine

/-! ### The bar fails test 4 -/

/-- A hart in a trap refuses what R228 bars with Illegal Encoding, whatever its handler and features (R290 test 4). -/
theorem Hart.refuses_of_barredInTrap {x : Hart} {i : Instr} (hd : x.trap.depth ≠ 0) (hi : i.barredInTrap = true) :
    x.refuses i = some 0x01 := by
  have hbars : x.bars i = true := by simp [Hart.bars, hd, hi]
  simp [Hart.refuses, hbars]

theorem barredInTrap_of_mem_barredRows {d a b : Gpr} {x y : BitVec 1} {f q : BitVec 4} {n : BitVec 3} {i : Instr}
    (hi : i ∈ barredRows d a b x y f q n) : i.barredInTrap = true :=
  List.all_eq_true.mp (rfl : (barredRows d a b x y f q n).all Instr.barredInTrap = true) i hi

/-! ### Tests 3 to 5 come first

`scalar` and `commitPoint` are the two shared frames that make the tests; the instructions that end a strip, and a few others, make
them on their own. One shape covers all three. -/

/-- Tests 3 to 5 of R290, then `go`. -/
def underTests (i : Instr) (s : State) (go : Out) : Out :=
  match s.cur.refuses i with
  | some c => .next (s.scalarTrap c i.word)
  | none => go

theorem underTests_refused {i : Instr} {s : State} {c : Nat} (h : s.cur.refuses i = some c) (go : Out) :
    underTests i s go = .next (s.scalarTrap c i.word) := by
  unfold underTests; rw [h]

/-- VSETL looks up its format beside the tests, and a failed test comes first all the same. -/
theorem execVsetl_underTests (d a : Gpr) (x y : BitVec 1) (f : BitVec 4) (s : State) :
    ∃ go, execVsetl d a x y f s = underTests (.vsetl d a x y f) s go := by
  refine ⟨execVsetl d a x y f s, ?_⟩
  cases h : s.cur.refuses (.vsetl d a x y f) with
  | some c => simp only [execVsetl, underTests, h]
  | none => simp only [underTests, h]

/-- VLEASE to MEND of R228 run under the tests. -/
theorem exec_leaseRow_underTests (d a : Gpr) (x y : BitVec 1) (f : BitVec 4) (s : State) :
    ∀ i ∈ [Instr.vlease d a, .vsetl d a x y f, .vfetch a, .vsync d, .vcommit, .vrel, .mbegin x, .mend],
      ∃ go, exec i s = underTests i s go := by
  have vlease : ∃ go, execVlease d a s = underTests (.vlease d a) s go := ⟨_, rfl⟩
  have vsetl : ∃ go, execVsetl d a x y f s = underTests (.vsetl d a x y f) s go := execVsetl_underTests d a x y f s
  have vfetch : ∃ go, execVfetch a s = underTests (.vfetch a) s go := ⟨_, rfl⟩
  have vsync : ∃ go, execVsync d s = underTests (.vsync d) s go := ⟨_, rfl⟩
  have vcommit : ∃ go, execVcommit s = underTests .vcommit s go := ⟨_, rfl⟩
  have vrel : ∃ go, execVrel s = underTests .vrel s go := ⟨_, rfl⟩
  have mbegin : ∃ go, execMbegin x s = underTests (.mbegin x) s go := ⟨_, rfl⟩
  have mend : ∃ go, execMend s = underTests .mend s go := ⟨_, rfl⟩
  simp only [List.forall_mem_cons]
  exact ⟨vlease, vsetl, vfetch, vsync, vcommit, vrel, mbegin, mend, List.forall_mem_nil _⟩

/-- MSG, XPUT, XGET, XSIG, QCOPY and QPUT of R228 run under the tests. -/
theorem exec_sendRow_underTests (d a b : Gpr) (x y : BitVec 1) (f q : BitVec 4) (s : State) :
    ∀ i ∈ [Instr.msg a b x y, .xput d a b, .xget d a b, .xsig a b, .qcopy d a f x q, .qput d a b x f],
      ∃ go, exec i s = underTests i s go := by
  have msg : ∃ go, execMsg a b x y s = underTests (.msg a b x y) s go := ⟨_, rfl⟩
  have xput : ∃ go, execXput d a b s = underTests (.xput d a b) s go := ⟨_, rfl⟩
  have xget : ∃ go, execXget d a b s = underTests (.xget d a b) s go := ⟨_, rfl⟩
  have xsig : ∃ go, execXsig a b s = underTests (.xsig a b) s go := ⟨_, rfl⟩
  have qcopy : ∃ go, execQcopy d a f x q s = underTests (.qcopy d a f x q) s go := ⟨_, rfl⟩
  have qput : ∃ go, execQput d a b x f s = underTests (.qput d a b x f) s go := ⟨_, rfl⟩
  simp only [List.forall_mem_cons]
  exact ⟨msg, xput, xget, xsig, qcopy, qput, List.forall_mem_nil _⟩

/-- BARJ, BARA, BARW, BARL and TEXIT of R228 run under the tests. -/
theorem exec_gangRow_underTests (d a : Gpr) (n : BitVec 3) (s : State) :
    ∀ i ∈ [Instr.barj d n, .bara d n, .barw a n, .barl n, .texit], ∃ go, exec i s = underTests i s go := by
  have barj : ∃ go, execBarj d n s = underTests (.barj d n) s go := ⟨_, rfl⟩
  have bara : ∃ go, execBara d n s = underTests (.bara d n) s go := ⟨_, rfl⟩
  have barw : ∃ go, execBarw a n s = underTests (.barw a n) s go := ⟨_, rfl⟩
  have barl : ∃ go, execBarl n s = underTests (.barl n) s go := ⟨_, rfl⟩
  have texit : ∃ go, execTexit s = underTests .texit s go := ⟨_, rfl⟩
  simp only [List.forall_mem_cons]
  exact ⟨barj, bara, barw, barl, texit, List.forall_mem_nil _⟩

theorem exec_barredRow_underTests (d a b : Gpr) (x y : BitVec 1) (f q : BitVec 4) (n : BitVec 3) (s : State) :
    ∀ i ∈ barredRows d a b x y f q n, ∃ go, exec i s = underTests i s go :=
  List.forall_mem_append.mpr ⟨exec_leaseRow_underTests d a x y f s,
    List.forall_mem_append.mpr ⟨exec_sendRow_underTests d a b x y f q s, exec_gangRow_underTests d a n s⟩⟩

/-- Settles O27: each instruction of the list runs under tests 3 to 5 of R290, and in a trap it fails test 4. -/
theorem barredWhileTrapped : Obligations.BarredWhileTrapped := by
  unfold Obligations.BarredWhileTrapped
  intro d a b x y f q n s hd i hi
  obtain ⟨go, hexec⟩ := exec_barredRow_underTests d a b x y f q n s i hi
  have hrefused : s.cur.refuses i = some 0x01 := Hart.refuses_of_barredInTrap hd (barredInTrap_of_mem_barredRows hi)
  rw [hexec, underTests_refused hrefused]

end Sys2Proof.Machine

/-! The values of E8M0 (R244). -/

namespace Sys2Proof.Machine

theorem valOf_e8m0_nan : valOf .e8m0 0xFF = .nan false := rfl

/-- Every code below 0xFF is a power of two (R244). -/
theorem valOf_e8m0_of_lt {b : Nat} (hb : b < 255) : valOf .e8m0 b = .fin false 1 ((b : Int) - 127) := by
  have hmod : b % 256 = b := Nat.mod_eq_of_lt (by omega)
  simp [valOf, hmod, hb.ne]

/-- Settles O21: the code 0xFF is a NaN, and each code below it a power of two. -/
theorem e8M0Values : Obligations.E8M0Values := by
  unfold Obligations.E8M0Values
  intro b hb
  rcases Nat.lt_or_ge b 255 with hlt | hge
  · rw [valOf_e8m0_of_lt hlt]
    refine ⟨fun _ => rfl, fun h => absurd h hlt.ne, rfl, fun n m e => ⟨nofun, fun h => ?_⟩⟩
    cases h
    exact Nat.one_ne_zero
  · obtain rfl : b = 255 := by omega
    rw [valOf_e8m0_nan]
    exact ⟨fun h => absurd h (by decide), fun _ => rfl, rfl, fun _ _ _ => ⟨nofun, nofun⟩⟩

end Sys2Proof.Machine

/-! Wrapping and saturating integer arithmetic (R263): what `wrapTo` and `satTo` make of a number that lies in the range of R241, and
the element that an integer vector instruction writes. -/

namespace Sys2Proof

/-! ### Widths and the ranges of R241 -/

theorem Fmt.width_pos (f : Fmt) : 0 < f.width := by
  cases f <;> decide

theorem cast_wrapTo (x : Int) (w : Nat) : (wrapTo x w : Int) = x % 2 ^ w :=
  Int.toNat_of_nonneg (Int.emod_nonneg x (by positivity))

theorem wrapTo_lt (x : Int) (w : Nat) : wrapTo x w < 2 ^ w := by
  have h : (wrapTo x w : Int) < 2 ^ w := by
    rw [cast_wrapTo]
    exact Int.emod_lt_of_pos x (by positivity)
  exact_mod_cast h

/-- A number of the unsigned range of R241 is its own pattern. -/
theorem cast_wrapTo_of_mem {x : Int} {w : Nat} (h0 : 0 ≤ x) (hw : x < 2 ^ w) : (wrapTo x w : Int) = x := by
  rw [cast_wrapTo, Int.emod_eq_of_lt h0 hw]

/-- A negative number of the signed range of R241 has the pattern `2^w` above it. -/
theorem cast_wrapTo_of_neg {x : Int} {w : Nat} (hlo : -2 ^ w ≤ x) (hneg : x < 0) : (wrapTo x w : Int) = x + 2 ^ w := by
  rw [cast_wrapTo, ← Int.add_emod_right, Int.emod_eq_of_lt (by omega) (by omega)]

theorem two_pow_eq_two_mul_half {w : Nat} (hw : 0 < w) : (2 : Int) ^ w = 2 * 2 ^ (w - 1) := by
  rw [← pow_succ', Nat.sub_add_cancel hw]

/-- A signed read of its pattern gives back a number of the signed range of R241. -/
theorem sextOf_wrapTo {x : Int} {w : Nat} (hw : 0 < w) (hlo : -2 ^ (w - 1) ≤ x) (hhi : x ≤ 2 ^ (w - 1) - 1) :
    sextOf (wrapTo x w) w = x := by
  have hpow := two_pow_eq_two_mul_half hw
  have hcast : ((2 ^ (w - 1) : Nat) : Int) = 2 ^ (w - 1) := by norm_cast
  simp only [sextOf, Nat.mod_eq_of_lt (wrapTo_lt x w)]
  rcases lt_or_ge x 0 with hneg | hnonneg
  · have hpat := cast_wrapTo_of_neg (w := w) (by omega) hneg
    rw [if_neg (by omega)]
    omega
  · have hpat := cast_wrapTo_of_mem (w := w) hnonneg (by omega)
    rw [if_pos (by omega)]
    exact hpat

/-- A signed read looks at the low `w` bits alone (R293). -/
theorem sextOf_mod (x w : Nat) : sextOf (x % 2 ^ w) w = sextOf x w := by
  simp only [sextOf, Nat.mod_mod]

theorem satTo_signed_mem (x : Int) (w : Nat) : -2 ^ (w - 1) ≤ satTo x w true ∧ satTo x w true ≤ 2 ^ (w - 1) - 1 := by
  have hpos : (0 : Int) < 2 ^ (w - 1) := by positivity
  simp only [satTo, if_true]
  omega

theorem satTo_unsigned_mem (x : Int) (w : Nat) : 0 ≤ satTo x w false ∧ satTo x w false < 2 ^ w := by
  have hpos : (0 : Int) < 2 ^ w := by positivity
  simp only [satTo, Bool.false_eq_true, if_false]
  omega

end Sys2Proof

namespace Sys2Proof.Machine

/-! ### Saturated patterns -/

theorem satU_lt (w : Nat) (x : Int) : satU w x < 2 ^ w := wrapTo_lt _ w

/-- Read as signed, the pattern of VADDS and VSUBS is the clamped result. -/
theorem sextOf_satS {w : Nat} (hw : 0 < w) (x : Int) : sextOf (satS w x) w = max (-2 ^ (w - 1)) (min (2 ^ (w - 1) - 1) x) := by
  obtain ⟨hlo, hhi⟩ := satTo_signed_mem x w
  rw [satS, sextOf_wrapTo hw hlo hhi, satTo, if_pos rfl, min_comm]

/-- The pattern of VADDSU and VSUBSU is the clamped result. -/
theorem cast_satU (w : Nat) (x : Int) : (satU w x : Int) = satTo x w false := by
  obtain ⟨h0, hw⟩ := satTo_unsigned_mem x w
  exact cast_wrapTo_of_mem h0 hw

theorem satU_add (w a b : Nat) : satU w ((a : Int) + b) = min (2 ^ w - 1) (a + b) := by
  have hpos : 0 < 2 ^ w := Nat.two_pow_pos w
  have hsat := cast_satU w ((a : Int) + b)
  simp only [satTo, Bool.false_eq_true, if_false] at hsat
  have hcast : ((2 ^ w : Nat) : Int) = 2 ^ w := by norm_cast
  omega

/-- The lower bound clamps at 0 as the subtraction of naturals does; the upper bound is never reached. -/
theorem satU_sub {w a : Nat} (b : Nat) (ha : a < 2 ^ w) : satU w ((a : Int) - b) = a - b := by
  have hsat := cast_satU w ((a : Int) - b)
  simp only [satTo, Bool.false_eq_true, if_false] at hsat
  have hcast : ((2 ^ w : Nat) : Int) = 2 ^ w := by norm_cast
  omega

/-! ### The element that an integer vector instruction writes -/

theorem Range.el_lt (g : Range) (r w e : Nat) : g.el r w e < 2 ^ w := by
  unfold Range.el
  split
  · exact Nat.two_pow_pos w
  · exact elBits_lt r w e

theorem State.putsEl_active {s : State} {g : Range} {f : VFields} {e : Nat} (h : s.act g f e = true) (v old : Nat) :
    s.putsEl g f e v old = v := if_pos h

/-- An integer instruction of R330 completes without a flag, and an active element holds the low `w` bits of its result. -/
theorem exec_intVec_activeElement {i : Instr} {f : VFields} {s : State} {e : Nat} {op : Nat → Nat → Nat → Nat → Nat}
    (hexec : exec i s = intVec i f op s) (hact : s.act (s.cur.range (fmtOf f).width) f e = true) (hok : s.vectorOk i) :
    let w := (fmtOf f).width; let g := s.cur.range w
    ∃ t, exec i s = .next t ∧ s.noFlags t
      ∧ elBits (t.v f.d) w e = op w (g.el (s.v f.a) w e) (s.operandB g f w e) (g.el (s.v f.e) w e) % 2 ^ w := by
  intro w g
  obtain ⟨⟨helems, -⟩, hflags⟩ := eachV_resultV s f w w
    (fun g e => (op w (g.el (s.v f.a) w e) (s.operandB g f w e) (g.el (s.v f.e) w e), 0)) fun _ _ => rfl
  refine ⟨_, hexec.trans (vectorPure_ok hok _), hflags, ?_⟩
  rw [helems, State.putsEl_active hact]

/-! ### The instructions of R263 -/

theorem exec_vadd (f : VFields) (s : State) : exec (.vadd f) s = intVec (.vadd f) f (fun _ a b _ => a + b) s := rfl

theorem exec_vmul (f : VFields) (s : State) : exec (.vmul f) s = intVec (.vmul f) f (fun _ a b _ => a * b) s := rfl

theorem exec_vsub (f : VFields) (s : State) : exec (.vsub f) s = intVec (.vsub f) f (fun w a b _ => wrapTo ((a : Int) - b) w) s := rfl

theorem exec_vmad (f : VFields) (s : State) : exec (.vmad f) s = intVec (.vmad f) f (fun _ a b c => a * b + c) s := rfl

theorem exec_vadds (f : VFields) (s : State) : exec (.vadds f) s = intVec (.vadds f) f (fun w a b _ => satS w (sextOf a w + sextOf b w)) s := rfl

theorem exec_vsubs (f : VFields) (s : State) : exec (.vsubs f) s = intVec (.vsubs f) f (fun w a b _ => satS w (sextOf a w - sextOf b w)) s := rfl

theorem exec_vaddsu (f : VFields) (s : State) : exec (.vaddsu f) s = intVec (.vaddsu f) f (fun w a b _ => satU w ((a : Int) + b)) s := rfl

theorem exec_vsubsu (f : VFields) (s : State) : exec (.vsubsu f) s = intVec (.vsubsu f) f (fun w a b _ => satU w ((a : Int) - b)) s := rfl

/-- Settles O32: each instruction writes the low bits of its result; that of a wrapping one is the exact result modulo `2^w`, and a
clamped one has nothing above its `w` bits to lose. -/
theorem saturationRule : Obligations.SaturationRule := by
  unfold Obligations.SaturationRule
  intro f s e w g a b hact
  have ha : a < 2 ^ w := g.el_lt (s.v f.a) w e
  have hw : 0 < w := (fmtOf f).width_pos
  refine ⟨exec_intVec_activeElement (exec_vadd f s) hact, exec_intVec_activeElement (exec_vmul f s) hact, ?vsub,
    exec_intVec_activeElement (exec_vmad f s) hact, ?vadds, ?vsubs, ?vaddsu, ?vsubsu⟩ <;> intro hok
  case vsub =>
    obtain ⟨t, hnext, hflags, hel⟩ := exec_intVec_activeElement (exec_vsub f s) hact hok
    exact ⟨t, hnext, hflags, by rw [hel, Nat.mod_eq_of_lt (wrapTo_lt _ _), cast_wrapTo]⟩
  case vadds =>
    obtain ⟨t, hnext, hflags, hel⟩ := exec_intVec_activeElement (exec_vadds f s) hact hok
    exact ⟨t, hnext, hflags, by rw [hel, sextOf_mod, sextOf_satS hw]⟩
  case vsubs =>
    obtain ⟨t, hnext, hflags, hel⟩ := exec_intVec_activeElement (exec_vsubs f s) hact hok
    exact ⟨t, hnext, hflags, by rw [hel, sextOf_mod, sextOf_satS hw]⟩
  case vaddsu =>
    obtain ⟨t, hnext, hflags, hel⟩ := exec_intVec_activeElement (exec_vaddsu f s) hact hok
    exact ⟨t, hnext, hflags, by rw [hel, Nat.mod_eq_of_lt (satU_lt _ _), satU_add]⟩
  case vsubsu =>
    obtain ⟨t, hnext, hflags, hel⟩ := exec_intVec_activeElement (exec_vsubsu f s) hact hok
    exact ⟨t, hnext, hflags, by rw [hel, Nat.mod_eq_of_lt (satU_lt _ _), satU_sub _ ha]⟩

end Sys2Proof.Machine

/-! The divisions of R306: the quotient and remainder of signed words are those of the library's signed division of words, but that
the quotient by 0 is all ones. -/

namespace Sys2Proof

/-- The word of an integer is its residue modulo `2^64` (R7). -/
theorem wordOf_eq_ofInt (x : Int) : wordOf x = BitVec.ofInt 64 x := by
  apply BitVec.eq_of_toNat_eq
  rw [wordOf, BitVec.toNat_ofNat, Nat.mod_eq_of_lt (wrapTo_lt x 64), BitVec.toNat_ofInt]
  rfl

end Sys2Proof

namespace Sys2Proof.Machine

/-! ### What the divisions give -/

theorem divS_zero (a : Word) : divS a 0 = 0xFFFFFFFFFFFFFFFF := rfl

theorem divU_zero (a : Word) : divU a 0 = 0xFFFFFFFFFFFFFFFF := rfl

theorem remS_zero (a : Word) : remS a 0 = a := rfl

theorem remU_zero (a : Word) : remU a 0 = a := rfl

theorem toNat_divU {b : Word} (a : Word) (hb : b ≠ 0) : (divU a b).toNat = a.toNat / b.toNat := by
  rw [divU, if_neg hb, BitVec.toNat_ofNat, Nat.mod_eq_of_lt ((Nat.div_le_self _ _).trans_lt a.isLt)]

theorem toNat_remU {b : Word} (a : Word) (hb : b ≠ 0) : (remU a b).toNat = a.toNat % b.toNat := by
  rw [remU, if_neg hb, BitVec.toNat_ofNat, Nat.mod_eq_of_lt ((Nat.mod_le _ _).trans_lt a.isLt)]

theorem divS_eq_sdiv {b : Word} (a : Word) (hb : b ≠ 0) : divS a b = a.sdiv b := by
  apply BitVec.eq_of_toInt_eq
  rw [divS, if_neg hb, wordOf_eq_ofInt, BitVec.toInt_ofInt, BitVec.toInt_sdiv]

theorem remS_eq_srem {b : Word} (a : Word) (hb : b ≠ 0) : remS a b = a.srem b := by
  apply BitVec.eq_of_toInt_eq
  rw [remS, if_neg hb, wordOf_eq_ofInt, ← BitVec.toInt_srem, BitVec.ofInt_toInt]

theorem toInt_remS {b : Word} (a : Word) (hb : b ≠ 0) : (remS a b).toInt = a.toInt.tmod b.toInt := by
  rw [remS_eq_srem a hb, BitVec.toInt_srem]

theorem eq_intMin_of_toInt {a : Word} (h : a.toInt = -2 ^ 63) : a = BitVec.intMin 64 := BitVec.eq_of_toInt_eq h

theorem eq_neg_one_of_toInt {b : Word} (h : b.toInt = -1) : b = -1 := BitVec.eq_of_toInt_eq h

/-- But for the least number over -1 the quotient fits, so that the word is the truncated quotient itself. -/
theorem toInt_divS {a b : Word} (hb : b ≠ 0) (hfits : ¬(a.toInt = -2 ^ 63 ∧ b.toInt = -1)) :
    (divS a b).toInt = a.toInt.tdiv b.toInt := by
  rw [divS_eq_sdiv a hb]
  apply BitVec.toInt_sdiv_of_ne_or_ne
  by_contra! h
  obtain ⟨rfl, rfl⟩ := h
  exact hfits ⟨rfl, rfl⟩

theorem divS_overflow {a b : Word} (ha : a.toInt = -2 ^ 63) (hb : b.toInt = -1) : divS a b = 0x8000000000000000 := by
  rw [eq_intMin_of_toInt ha, eq_neg_one_of_toInt hb]
  rfl

theorem remS_overflow {a b : Word} (ha : a.toInt = -2 ^ 63) (hb : b.toInt = -1) : remS a b = 0 := by
  rw [eq_intMin_of_toInt ha, eq_neg_one_of_toInt hb]
  rfl

/-- The remainder of a truncated quotient is zero or has the sign of the dividend. -/
theorem tmod_eq_zero_or_neg_iff (x y : Int) : x.tmod y = 0 ∨ (x.tmod y < 0 ↔ x < 0) := by
  have hsign := Int.sign_tmod x y
  split at hsign
  · exact .inl (Int.sign_eq_zero_iff_zero.mp hsign)
  · exact .inr (by rw [← Int.sign_eq_neg_one_iff_neg, hsign, Int.sign_eq_neg_one_iff_neg])

/-- The division of R306 for a divisor other than 0 and a quotient that fits. -/
theorem divS_remS_spec {a b : Word} (hb : b ≠ 0) (hfits : ¬(a.toInt = -2 ^ 63 ∧ b.toInt = -1)) :
    a.toInt = (divS a b).toInt * b.toInt + (remS a b).toInt ∧ (remS a b).toInt.natAbs < b.toInt.natAbs
      ∧ ((remS a b).toInt = 0 ∨ ((remS a b).toInt < 0 ↔ a.toInt < 0)) := by
  have hb' : b.toInt ≠ 0 := fun h => hb (BitVec.eq_of_toInt_eq h)
  rw [toInt_divS hb hfits, toInt_remS a hb]
  refine ⟨(Int.tdiv_mul_add_tmod _ _).symm, ?_, tmod_eq_zero_or_neg_iff _ _⟩
  rw [Int.natAbs_tmod]
  exact Nat.mod_lt _ (Int.natAbs_pos.mpr hb')

/-! ### The instructions -/

theorem exec_div (d a b : Gpr) (s : State) : exec (.div d a b) s = .next (s.put d (divS (s.g a) (s.g b))) := rfl

theorem exec_rem (d a b : Gpr) (s : State) : exec (.rem d a b) s = .next (s.put d (remS (s.g a) (s.g b))) := rfl

theorem exec_divu (d a b : Gpr) (s : State) : exec (.divu d a b) s = .next (s.put d (divU (s.g a) (s.g b))) := rfl

theorem exec_remu (d a b : Gpr) (s : State) : exec (.remu d a b) s = .next (s.put d (remU (s.g a) (s.g b))) := rfl

theorem exec_mulh (d a b : Gpr) (s : State) :
    exec (.mulh d a b) s = .next (s.put d (wordOf ((s.g a).toInt * (s.g b).toInt / 2 ^ 64))) := rfl

theorem exec_mulhu (d a b : Gpr) (s : State) :
    exec (.mulhu d a b) s = .next (s.put d (BitVec.ofNat 64 ((s.g a).toNat * (s.g b).toNat / 2 ^ 64))) := rfl

theorem exec_sar (d a b : Gpr) (s : State) : exec (.sar d a b) s = .next (s.put d (sarW (s.g a) (s.g b).toNat)) := rfl

theorem exec_ctz (d a : Gpr) (s : State) : exec (.ctz d a) s = .next (s.put d (BitVec.ofNat 64 (ctzW (s.g a)))) := rfl

/-- No hart refuses a legal word that needs no feature and is barred in no context (R290 tests 3 to 5). -/
theorem State.admits_of_unrestricted {i : Instr} {s : State} (hlegal : i.legal = true) (hfeat : i.features = 0)
    (hhandler : i.barredInHandler = false) (htrap : i.barredInTrap = false) (hlevel : s.cur.denies i = false) : s.admits i := by
  simp [State.admits, Hart.refuses, Hart.hasFeatures, Hart.bars, hlegal, hfeat, hhandler, htrap, hlevel]

theorem State.admits_sext {w : BitVec 2} (hw : w ≠ 3) (d a : Gpr) (s : State) : s.admits (.sext d a w) :=
  State.admits_of_unrestricted (bne_iff_ne.mpr hw) rfl rfl rfl rfl

theorem exec_sext {w : BitVec 2} (hw : w ≠ 3) (d a : Gpr) (s : State) :
    exec (.sext d a w) s = .next (s.put d (wordOf (sextOf (s.g a).toNat (8 * 2 ^ w.toNat)))) :=
  scalar_admitted (State.admits_sext hw d a s) fun s => .ok () (s.put d (wordOf (sextOf (s.g a).toNat (8 * 2 ^ w.toNat))))

/-- An instruction that retires with a result by `put` has retired with that result (R304). -/
theorem exists_resultIs_of_exec {i : Instr} {s : State} {d : Gpr} {v : Word} (h : exec i s = .next (s.put d v)) :
    ∃ t, exec i s = .next t ∧ s.resultIs t d v := ⟨_, h, s.put_resultIs d v⟩

/-- What gD reads after such an instruction. -/
theorem g_of_exec {i : Instr} {s t : State} {d : Gpr} {v : Word} (h : exec i s = .next (s.put d v)) (hd : d ≠ 0)
    (ht : exec i s = .next t) : t.g d = v := by
  obtain rfl : s.put d v = t := Host.Outcome.next.inj (h.symm.trans ht)
  rw [State.put_g, if_pos ⟨rfl, hd⟩]

/-- Settles O8: each division writes one result of words in every state; the truncated quotient and its remainder are those of the
integers but for the two cases with fixed results. The results that R306 lists are evaluated. -/
theorem divisionResults : Obligations.DivisionResults := by
  unfold Obligations.DivisionResults
  refine ⟨fun d a b s => ⟨divS (s.g a) (s.g b), remS (s.g a) (s.g b), divU (s.g a) (s.g b), remU (s.g a) (s.g b),
      exists_resultIs_of_exec (exec_div d a b s), exists_resultIs_of_exec (exec_rem d a b s),
      exists_resultIs_of_exec (exec_divu d a b s), exists_resultIs_of_exec (exec_remu d a b s), fun hb => ?byZero,
      fun hb => ⟨toNat_divU _ hb, toNat_remU _ hb⟩, fun ha hb => ⟨divS_overflow ha hb, remS_overflow ha hb⟩, divS_remS_spec⟩,
    ?signed, ?unsigned, ?highHalves, ?sar, ?ctz, ?sext, rfl, rfl, rfl, rfl⟩
  case byZero =>
    rw [hb]
    exact ⟨divS_zero _, divU_zero _, remS_zero _, remU_zero _⟩
  case signed =>
    intro s t ha hb
    exact ⟨fun h => by rw [g_of_exec (exec_div 3 1 2 s) (by decide) h, ha, hb]; rfl,
      fun h => by rw [g_of_exec (exec_rem 3 1 2 s) (by decide) h, ha, hb]; rfl⟩
  case unsigned =>
    intro s t ha hb
    exact ⟨fun h => by rw [g_of_exec (exec_divu 3 1 2 s) (by decide) h, ha, hb]; rfl,
      fun h => by rw [g_of_exec (exec_remu 3 1 2 s) (by decide) h, ha, hb]; rfl⟩
  case highHalves =>
    intro s t ha hb
    exact ⟨fun h => by rw [g_of_exec (exec_mulh 3 1 2 s) (by decide) h, ha, hb]; rfl,
      fun h => by rw [g_of_exec (exec_mulhu 3 1 2 s) (by decide) h, ha, hb]; rfl⟩
  case sar =>
    intro s t ha hb h
    rw [g_of_exec (exec_sar 3 1 2 s) (by decide) h, ha, hb]
    rfl
  case ctz =>
    intro s t ha h
    rw [g_of_exec (exec_ctz 3 1 s) (by decide) h, ha]
    rfl
  case sext =>
    intro s t ha h
    rw [g_of_exec (exec_sext (by decide) 3 1 s) (by decide) h, ha]
    rfl

end Sys2Proof.Machine

/-! The classes of FCLASS (R323), read off the fields of an encoding of a format with infinities (R242, R243). -/

namespace Sys2Proof.Machine

/-! ### The fields of an encoding -/

/-- The sign bit of an encoding. -/
def negField (f : Fmt) (b : Nat) : Bool := b.testBit (f.width - 1)

/-- The exponent field of an encoding. -/
def expField (f : Fmt) (b : Nat) : Nat := b / 2 ^ manBits f % 2 ^ expBits f

/-- The mantissa field of an encoding. -/
def manField (f : Fmt) (b : Nat) : Nat := b % 2 ^ manBits f

theorem hasInf_fpFmt (p : BitVec 1) : hasInf (fpFmt p) = true := by
  unfold fpFmt
  split <;> rfl

section

variable {f : Fmt} (h : hasInf f = true)
include h

/-- The sign stands above the exponent, the exponent above the mantissa, and nothing above the sign. -/
theorem width_of_hasInf : f.width = manBits f + expBits f + 1 := by
  revert h
  cases f <;> decide

theorem manBits_pos_of_hasInf : 0 < manBits f := by
  revert h
  cases f <;> decide

theorem expBits_pos_of_hasInf : 0 < expBits f := by
  revert h
  cases f <;> decide

/-- What an encoding stands for, by its fields (R243): such a format keeps the highest exponent for infinities and NaNs. -/
theorem valOf_of_hasInf (b : Nat) : valOf f b =
    if expField f b = 0 then .fin (negField f b) (manField f b) (1 - bias f - manBits f)
    else if expField f b = 2 ^ expBits f - 1 then
      (if manField f b = 0 then .inf (negField f b) else .nan (!(manField f b).testBit (manBits f - 1)))
    else .fin (negField f b) (manField f b + 2 ^ manBits f) (expField f b - bias f - manBits f) := by
  have hne : f ≠ .e4m3 := by rintro rfl; cases h
  unfold valOf
  split
  · cases h
  · simp only [h, hne, and_true, false_and, if_false]
    rfl

end

/-! ### Only the bits of the format count -/

section

variable {f : Fmt} (h : hasInf f = true)
include h

theorem negField_mod_width (b : Nat) : negField f (b % 2 ^ f.width) = negField f b := by
  have hw := width_of_hasInf h
  rw [negField, negField, Nat.testBit_mod_two_pow, decide_eq_true (by omega), Bool.true_and]

theorem expField_mod_width (b : Nat) : expField f (b % 2 ^ f.width) = expField f b := by
  rw [expField, expField, width_of_hasInf h, Nat.add_assoc, pow_add, Nat.mod_mul_right_div_self, Nat.mod_mod_of_dvd]
  exact pow_dvd_pow 2 (Nat.le_succ _)

theorem manField_mod_width (b : Nat) : manField f (b % 2 ^ f.width) = manField f b := by
  have hw := width_of_hasInf h
  exact Nat.mod_mod_of_dvd b (pow_dvd_pow 2 (by omega))

end

/-! ### The class -/

/-- The bit that R323 gives to the fields `neg`, `e` and `m` of an encoding, where `top` is the highest exponent and `quiet` the bit
of the mantissa that marks a quiet NaN. -/
def classBit (neg : Bool) (e m top quiet : Nat) : Nat :=
  if e = 0 then
    if m = 0 then (if neg then 3 else 4) else (if neg then 2 else 5)
  else if e = top then
    if m = 0 then (if neg then 0 else 7) else (if m < quiet then 8 else 9)
  else (if neg then 1 else 6)

/-- The highest bit of a mantissa is set when the mantissa has that bit's weight (R243). -/
theorem testBit_top_manField {f : Fmt} (h : hasInf f = true) (b : Nat) :
    (manField f b).testBit (manBits f - 1) = decide (2 ^ (manBits f - 1) ≤ manField f b) := by
  have hlt : manField f b < 2 ^ (manBits f - 1 + 1) := by
    rw [Nat.sub_add_cancel (manBits_pos_of_hasInf h)]
    exact Nat.mod_lt _ (Nat.two_pow_pos _)
  rcases Nat.lt_or_ge (manField f b) (2 ^ (manBits f - 1)) with hlow | hhigh
  · rw [Nat.testBit_lt_two_pow hlow, decide_eq_false hlow.not_ge]
  · rw [Nat.testBit_of_two_pow_le_and_two_pow_add_one_gt hhigh hlt, decide_eq_true hhigh]

theorem classOf_eq_classBit {f : Fmt} (h : hasInf f = true) (b : Nat) :
    classOf f b = classBit (negField f b) (expField f b) (manField f b) (2 ^ expBits f - 1) (2 ^ (manBits f - 1)) := by
  have hfield : b / 2 ^ manBits f % 2 ^ expBits f = expField f b := rfl
  simp only [classOf, classBit, valOf_of_hasInf h, testBit_top_manField h, hfield]
  by_cases hzero : expField f b = 0
  · simp [hzero]
  by_cases htop : expField f b = 2 ^ expBits f - 1
  · by_cases hman : manField f b = 0 <;> simp [hzero, ← htop, hman]
  · simp [hzero, htop]

/-- The class of an operand is that of its low bits (R241, R323). -/
theorem classOf_mod_width {f : Fmt} (h : hasInf f = true) (b : Nat) :
    classOf f (b % 2 ^ f.width) = classBit (negField f b) (expField f b) (manField f b) (2 ^ expBits f - 1) (2 ^ (manBits f - 1)) := by
  rw [classOf_eq_classBit h, negField_mod_width h, expField_mod_width h, manField_mod_width h]

/-- The table of R323: each bit is set for the encodings of its class alone. -/
def ClassTable (neg : Bool) (e m top quiet k : Nat) : Prop :=
  (k = 0 ↔ neg = true ∧ e = top ∧ m = 0) ∧ (k = 1 ↔ neg = true ∧ 0 < e ∧ e < top) ∧ (k = 2 ↔ neg = true ∧ e = 0 ∧ m ≠ 0)
    ∧ (k = 3 ↔ neg = true ∧ e = 0 ∧ m = 0) ∧ (k = 4 ↔ ¬neg = true ∧ e = 0 ∧ m = 0) ∧ (k = 5 ↔ ¬neg = true ∧ e = 0 ∧ m ≠ 0)
    ∧ (k = 6 ↔ ¬neg = true ∧ 0 < e ∧ e < top) ∧ (k = 7 ↔ ¬neg = true ∧ e = top ∧ m = 0)
    ∧ (k = 8 ↔ e = top ∧ m ≠ 0 ∧ ¬quiet ≤ m) ∧ (k = 9 ↔ e = top ∧ quiet ≤ m)

theorem classBit_lt (neg : Bool) (e m top quiet : Nat) : classBit neg e m top quiet < 10 := by
  unfold classBit
  split_ifs <;> decide

/-- The three kinds of exponent part the classes; within a kind the mantissa and the sign do. -/
theorem classTable_classBit (neg : Bool) {e m top quiet : Nat} (htop : 0 < top) (he : e ≤ top) (hquiet : 0 < quiet) :
    ClassTable neg e m top quiet (classBit neg e m top quiet) := by
  unfold ClassTable classBit
  obtain rfl | hpos := Nat.eq_zero_or_pos e
  · by_cases hm : m = 0 <;> cases neg <;> simp [hm, htop, htop.ne]
  obtain rfl | hlt := he.eq_or_lt
  · obtain rfl | hm := Nat.eq_zero_or_pos m
    · cases neg <;> simp [hpos.ne', hquiet.ne']
    · obtain hq | hq := Nat.lt_or_ge m quiet
      · simp [hpos.ne', hm.ne', hq]
      · simp [hpos.ne', hm.ne', hq, hq.not_gt]
  · cases neg <;> simp [hpos, hpos.ne', hlt, hlt.ne]

/-! ### The instruction -/

theorem exec_fclass {d a : Gpr} {p : BitVec 1} {s : State} (hadmits : s.admits (.fclass d a p)) :
    exec (.fclass d a p) s
      = .next (s.put d (BitVec.ofNat 64 (2 ^ classOf (fpFmt p) ((s.g a).toNat % 2 ^ (fpFmt p).width)))) :=
  scalar_admitted hadmits fun s => .ok () (s.put d (BitVec.ofNat 64 (2 ^ classOf (fpFmt p) ((s.g a).toNat % 2 ^ (fpFmt p).width))))

/-- Settles O19: the bit that FCLASS sets is the one that the table of R323 gives to the fields of the operand. -/
theorem fclassOneBit : Obligations.FclassOneBit := by
  unfold Obligations.FclassOneBit
  intro d a p s hadmits
  have hinf := hasInf_fpFmt p
  have hclass := classOf_mod_width hinf (s.g a).toNat
  have htop : 0 < 2 ^ expBits (fpFmt p) - 1 := Nat.sub_pos_of_lt (Nat.one_lt_two_pow (expBits_pos_of_hasInf hinf).ne')
  have hexp : expField (fpFmt p) (s.g a).toNat ≤ 2 ^ expBits (fpFmt p) - 1 := Nat.le_sub_one_of_lt (Nat.mod_lt _ (Nat.two_pow_pos _))
  refine ⟨_, _, exec_fclass hadmits, s.put_resultIs _ _, ?lt, ?table⟩
  case lt =>
    rw [hclass]
    exact classBit_lt _ _ _ _ _
  case table =>
    rw [hclass]
    exact classTable_classBit _ htop hexp (Nat.two_pow_pos _)

end Sys2Proof.Machine
